-- ==== Sys2Proof/Word.lean ====
section
/-! DEFINITION. The words that travel on NBC's ports and the fields cut from them (R5, R7, R9, R55). -/

namespace Sys2Proof

/-- A 64-bit word: a boxed value, a double as its bit pattern, an `i64`, a `u64` or an address (R5 `W`, R9, R29). -/
abbrev Word := BitVec 64

/-- The 4-bit type tag, bits 51:48 of a boxed word (R5 `TAG_W`, R55). -/
abbrev Tag := BitVec 4

/-- The 48-bit payload, bits 47:0 of a boxed word (R5 `PAY_W`, R55). -/
abbrev Payload := BitVec 48

/-- The 5-bit operation select, format `OP5` (R5 `OPW`, R65). -/
abbrev OpCode := BitVec 5

end Sys2Proof
end

