-- ==== Sys2Proof/Syntax.lean ====
section
/-! DEFINITION. The nineteen operations of R66, and an evaluation as a caller writes it (R71). -/

namespace Sys2Proof

/-- The operations NBC can be asked for, one constructor per row of the opcode table (R66, R170). The operands are not
encoded: they are the words on the ports `a` and `b` (R65), so no constructor carries one. -/
inductive Instr where
  | nanTemplate   -- R89
  | fromFloat     -- R95
  | fromSigned    -- R96
  | fromUnsigned  -- R97
  | fromPointer   -- R98
  | classify      -- R105
  | isFloat       -- R106
  | isSigned      -- R107
  | isUnsigned    -- R108
  | isPointer     -- R109
  | eq            -- R130
  | asFloat       -- R115
  | asSigned      -- R116
  | asUnsigned    -- R117
  | asPointer     -- R118
  | getFloat      -- R119
  | getSigned     -- R120
  | getUnsigned   -- R121
  | getPointer    -- R122
deriving DecidableEq, Repr

/-- How many operand words an operation reads (R66, column "operands read"): `a` first, then `b`. -/
def Instr.arity : Instr → Nat
  | .nanTemplate => 0
  | .fromFloat | .fromSigned | .fromUnsigned | .fromPointer => 1
  | .classify | .isFloat | .isSigned | .isUnsigned | .isPointer => 1
  | .eq => 2
  | .asFloat | .asSigned | .asUnsigned | .asPointer => 1
  | .getFloat | .getSigned | .getUnsigned | .getPointer => 1

/-- One line of R71 without the caller's name for its result: an operation and the operand words written after it. -/
structure Evaluation where
  instr    : Instr
  operands : List Word
deriving DecidableEq, Repr

end Sys2Proof
end

