-- ==== Sys2Proof/WellFormed.lean ====
section
/-! DEFINITION. The two checks on what a caller can write: an operation code that is not reserved, and an evaluation
with as many operands as its operation reads. -/

namespace Sys2Proof

/-- `grp = op[4:3]` (R65). -/
def OpCode.group (op : OpCode) : BitVec 2 := op.extractLsb' 3 2

/-- `var = op[2:0]` (R65). -/
def OpCode.variantField (op : OpCode) : BitVec 3 := op.extractLsb' 0 3

/-- Whether a code selects an operation, read off R65's two fields: `var` is 0 or a tag number 1 to 4, and the group of
fallible extractors (3) has no variant-free operation. R66 and R67 list the codes one by one. -/
def OpCode.wellFormed (op : OpCode) : Bool :=
  decide ((OpCode.variantField op).toNat ≤ 4) && !(OpCode.group op == 3#2 && OpCode.variantField op == 0#3)

/-- Whether an evaluation is written with exactly the operands its operation reads (R66, R71). -/
def Evaluation.wellFormed (e : Evaluation) : Bool := e.operands.length == e.instr.arity

end Sys2Proof
end

