-- ==== Sys2Proof/Decode.lean ====
section
/-! DEFINITION. The operation map R66: the decoder from the 5-bit code, total, rejecting the reserved codes of R67 by
name, and the encoder, written from R65's two fields. -/

namespace Sys2Proof

/-- What the decoder answers for a code: an operation, or the reserved code itself (R67: "its decoder from 5 bits returns
'illegal'"). -/
inductive Decoded where
  | instr (i : Instr)
  | reserved (op : OpCode)
deriving DecidableEq, Repr

/-- One row of the operation map. -/
structure OpRow where
  code  : OpCode
  instr : Instr
deriving DecidableEq, Repr

/-- Group 0 of R66: construct. -/
def opTableConstruct : List OpRow :=
  [⟨0x00#5, .nanTemplate⟩, ⟨0x01#5, .fromFloat⟩, ⟨0x02#5, .fromSigned⟩, ⟨0x03#5, .fromUnsigned⟩, ⟨0x04#5, .fromPointer⟩]

/-- Group 1 of R66: classify and test. -/
def opTableClassify : List OpRow :=
  [⟨0x08#5, .classify⟩, ⟨0x09#5, .isFloat⟩, ⟨0x0A#5, .isSigned⟩, ⟨0x0B#5, .isUnsigned⟩, ⟨0x0C#5, .isPointer⟩]

/-- Group 2 of R66: total extract, and `eq`. -/
def opTableExtract : List OpRow :=
  [⟨0x10#5, .eq⟩, ⟨0x11#5, .asFloat⟩, ⟨0x12#5, .asSigned⟩, ⟨0x13#5, .asUnsigned⟩, ⟨0x14#5, .asPointer⟩]

/-- Group 3 of R66: fallible extract. -/
def opTableFallible : List OpRow :=
  [⟨0x19#5, .getFloat⟩, ⟨0x1A#5, .getSigned⟩, ⟨0x1B#5, .getUnsigned⟩, ⟨0x1C#5, .getPointer⟩]

/-- The operation map R66, all nineteen rows. -/
def opTable : List OpRow := opTableConstruct ++ opTableClassify ++ opTableExtract ++ opTableFallible

/-- The decoder: all five bits are compared (R66), and a code of no row is reserved (R67). -/
def decode (op : OpCode) : Decoded :=
  match opTable.find? (fun r => r.code == op) with
  | some r => .instr r.instr
  | none => .reserved op

/-- `grp` of an operation: 0 construct, 1 classify and test, 2 total extract and `eq`, 3 fallible extract (R65). -/
def Instr.group : Instr → BitVec 2
  | .nanTemplate | .fromFloat | .fromSigned | .fromUnsigned | .fromPointer => 0#2
  | .classify | .isFloat | .isSigned | .isUnsigned | .isPointer => 1#2
  | .eq | .asFloat | .asSigned | .asUnsigned | .asPointer => 2#2
  | .getFloat | .getSigned | .getUnsigned | .getPointer => 3#2

/-- `var` of an operation: the document's tag number of its variant, or 0 for the group's variant-free one (R65). -/
def Instr.variantField : Instr → BitVec 3
  | .nanTemplate | .classify | .eq => 0#3
  | .fromFloat | .isFloat | .asFloat | .getFloat => 1#3
  | .fromSigned | .isSigned | .asSigned | .getSigned => 2#3
  | .fromUnsigned | .isUnsigned | .asUnsigned | .getUnsigned => 3#3
  | .fromPointer | .isPointer | .asPointer | .getPointer => 4#3

/-- The encoder: `op = {grp, var}` (R65). -/
def encode (i : Instr) : OpCode := i.group ++ i.variantField

/-- The level on the five wires of port `op` for an instruction word numbered as the opcode table numbers it: bit `i` of
the port is bit `i` of the word (R7). The port has no wire for a higher bit (log 4). -/
def opCodeOfTableWord (nbits w : Nat) : OpCode := BitVec.ofNat 5 (w % 2 ^ nbits)

/-- What the decoder reads from a table word, none where it rejects. -/
def decodeTableWord (nbits w : Nat) : Option Instr :=
  match decode (opCodeOfTableWord nbits w) with
  | .instr i => some i
  | .reserved _ => none

end Sys2Proof
end

