-- ==== Sys2Proof/Config.lean ====
section
/-! DEFINITION. The parameters of R5 that the boxed word's format fixes. Every one is a number of the spec; R5 leaves
none OPEN and R31 draws no value, so this file holds no free value. -/

namespace Sys2Proof

/-- `T_SIGN`, the sign bit of the template (R5, R88; the spec's own decision D4). -/
def Config.templateSign : Bool := false

/-- `TAG_SHIFT` (R24). -/
def Config.tagShift : Nat := 48

/-- The place of `SIGN_BIT` (R5, R86). -/
def Config.signShift : Nat := 63

end Sys2Proof
end

