-- ==== Sys2Proof/Machine/Operands.lean ====
section
/-! DEFINITION. The operand forms: the layout constants of R24, the field primitives R80 to R86, the template R88, and
the negations of R8, each in the mask-and-shift form the rule gives first. -/

namespace Sys2Proof.Machine

open Sys2Proof

/-- `SIGN_MASK`: bit 63 (R24). -/
def signMask : Word := 0x8000_0000_0000_0000#64

/-- `EXP_MASK`: bits 62:52 (R24). -/
def expMask : Word := 0x7FF0_0000_0000_0000#64

/-- `TAG_MASK`: bits 51:48 (R24). -/
def tagMask : Word := 0x000F_0000_0000_0000#64

/-- `PAYLOAD_MASK`, the document's "mask48": bits 47:0 (R24). -/
def payloadMask : Word := 0x0000_FFFF_FFFF_FFFF#64

/-- `MANT_MASK`: tag field and payload field together, bits 51:0 (R24). -/
def mantMask : Word := 0x000F_FFFF_FFFF_FFFF#64

/-- `TAG_SINT` (R5, R24). -/
def tagSignedInt : Tag := 2#4

/-- `TAG_UINT` (R5, R24). -/
def tagUnsignedInt : Tag := 3#4

/-- `TAG_PTR` (R5, R24). -/
def tagPointer : Tag := 4#4

/-- `TEMPLATE = {T_SIGN, 0x7FF, 0, 0}` (R61, R88). -/
def template : Word := BitVec.ofBool Config.templateSign ++ 0x7FF#11 ++ 0#4 ++ 0#48

/-- `IsNaN` (R80, C1): exponent all ones and mantissa nonzero; the sign bit is not read. -/
def isNaN (w : Word) : Bool := (w &&& expMask == expMask) && (w &&& mantMask != 0#64)

/-- `TagOf` (R81). -/
def tagOf (w : Word) : Tag := ((w &&& tagMask) >>> Config.tagShift).setWidth 4

/-- `PayloadOf` (R82). -/
def payloadOf (w : Word) : Payload := (w &&& payloadMask).setWidth 48

/-- `SignOf` (R83). -/
def signOf (w : Word) : Bool := w.getLsbD 63

/-- `SetTag`, the document's "set_type" (R84): bits 51:48 and no other (R87). -/
def setTag (w : Word) (t : Tag) : Word := (w &&& ~~~tagMask) ||| (t.setWidth 64 <<< Config.tagShift)

/-- `SetPayload`, the document's "set_value" (R85): bits 47:0 and no other (R87). -/
def setPayload (w : Word) (p : Payload) : Word := (w &&& ~~~payloadMask) ||| p.setWidth 64

/-- `SetSign` (R86): bit 63 and no other (R87). -/
def setSign (w : Word) (s : Bool) : Word :=
  (w &&& ~~~signMask) ||| ((BitVec.ofBool s).setWidth 64 <<< Config.signShift)

/-- `neg_64`, two's-complement negation modulo 2^64 (R8). -/
def neg64 (v : Word) : Word := ~~~v + 1#64

/-- `zext_64` of a payload (R8). -/
def zextPayload (p : Payload) : Word := p.setWidth 64

/-- `zext_64` of a tag (R8). -/
def zextTag (t : Tag) : Word := t.setWidth 64

/-- The absolute value of an `i64` modulo 2^64 (R96 `mag`, R99 (b); the spec's decision D5 for the most negative one). -/
def magnitude64 (v : Word) : Word := if signOf v then neg64 v else v

end Sys2Proof.Machine
end

