-- ==== Sys2Proof/Machine/Flags.lean ====
section
/-! DEFINITION. The result triple `(y, ok, ill)` of one evaluation (R11) and the rule of each way to fill its two status
bits (R11, R23, R136); the closed types `Variant` and `Class` (R12). -/

namespace Sys2Proof.Machine

open Sys2Proof

/-- The result of one evaluation (R11). -/
structure Result where
  y   : Word
  ok  : Bool
  ill : Bool
deriving DecidableEq, Repr

/-- The four logical variants, closed (R12). -/
inductive Variant where
  | float
  | signedInt
  | unsignedInt
  | pointer
deriving DecidableEq, Repr

/-- The type `Class`: a variant, or the unrecognized-tag error with the raw tag (R12, R105). -/
inductive Class where
  | ok (v : Variant)
  | err (t : Tag)
deriving DecidableEq, Repr

/-- The number of a variant: the document's own tag value (R12, R105). -/
def Variant.number : Variant → Tag
  | .float => 1#4
  | .signedInt => 2#4
  | .unsignedInt => 3#4
  | .pointer => 4#4

/-- `Ok(x)` or `Some(x)`: `(y = x, ok = 1)` (R11). -/
def resultPresent (x : Word) : Result := ⟨x, true, false⟩

/-- Absence: `(y = 0, ok = 0)` (R11, R136 variant mismatch; the spec's decision D10). -/
def resultAbsent : Result := ⟨0#64, false, false⟩

/-- A Boolean result: in `y[0]`, `y[63:1] = 0`, `ok = 1` (R106; the spec's decision D11). -/
def resultBool (c : Bool) : Result := ⟨(BitVec.ofBool c).setWidth 64, true, false⟩

/-- A class as a result: the variant's number with `ok = 1`, or the tag with `ok = 0` (R11, R105, R136 unrecognized tag). -/
def resultClass : Class → Result
  | .ok v => ⟨zextTag v.number, true, false⟩
  | .err t => ⟨zextTag t, false, false⟩

/-- A reserved operation code: `y = 0, ok = 0, ill = 1` (R67, R136). -/
def resultReserved : Result := ⟨0#64, false, true⟩

end Sys2Proof.Machine
end

