-- ==== Sys2Proof/Machine/State.lean ====
section
/-! DEFINITION. The state: the level on each port of R28, and nothing else, since R20 to R27 give the block no register,
program counter, flag, memory or hidden state (log 1). -/

namespace Sys2Proof.Machine

open Sys2Proof

/-- The levels on NBC's ports (R28). The first three are the caller's, the last three the block's. -/
structure State where
  /-- Input: operation select, 5 bits (R28, R65). -/
  op  : OpCode
  /-- Input: first operand (R28). -/
  a   : Word
  /-- Input: second operand, read by `eq` only (R28). -/
  b   : Word
  /-- Output: result data (R11, R28). -/
  y   : Word
  /-- Output: result present (R11, R23). -/
  ok  : Bool
  /-- Output: `op` is a reserved code (R23, R67). -/
  ill : Bool
deriving DecidableEq, Repr

/-- Why a step could stop with a fault. The type is empty: "NBC raises no exception, takes no trap and never stops"
(R135), so nothing raises one and there is nothing to call safe or unsafe. -/
inductive Fault where
deriving DecidableEq, Repr

/-- Why a step could be refused. -/
inductive Refusal where
  /-- An instruction of the opcode table without a meaning. Raised by nothing: every arm of `exec` has its meaning. Safe. -/
  | notModelled (mnemonic : String)
deriving DecidableEq, Repr

/-- The block before the first presentation. NBC has no reset input and no reset value (R32, R155). The input levels are
the model's DESIGN CHOICE, all zero (log 2); the outputs are, as R155 says of every moment, the function of them: code
0x00 is `nan_template`, whose output is the template with `ok = 1` and `ill = 0` (R66, R89). -/
def State.reset : State where
  op  := 0x00#5
  a   := 0#64
  b   := 0#64
  y   := 0x7FF0_0000_0000_0000#64
  ok  := true
  ill := false

end Sys2Proof.Machine
end

