-- ==== Sys2Proof/Machine/Ops.lean ====
section
/-! DEFINITION. The operations on the ports: the block drives its outputs, the caller presents inputs. There is no
memory to read or write (R40) and no exception to take or return from (R135, R139, R140): the one thing that stands in
an exception's place, the report of a reserved code, is `execReserved`. -/

namespace Sys2Proof.Machine

open Sys2Proof

/-- The block puts a result on `y`, `ok` and `ill`; the caller's inputs are not the block's to change (R28). -/
def State.drive (s : State) (r : Result) : State := { s with y := r.y, ok := r.ok, ill := r.ill }

/-- The caller puts a code and two operands on `op`, `a` and `b` (R28). The outputs follow at the next step (log 5). -/
def State.present (s : State) (op : OpCode) (a b : Word) : State := { s with op := op, a := a, b := b }

/-- The caller presents one line of R71: the code of its operation, its first operand on `a` and its second on `b`; a
port it gives no operand for keeps its level (log 7). -/
def State.presentEvaluation (s : State) (e : Evaluation) : State :=
  s.present (encode e.instr) (e.operands.getD 0 s.a) (e.operands.getD 1 s.b)

/-- An evaluation of a reserved code: a definite result and no trap (R67, R135, R138 (1)). -/
def execReserved (s : State) : Host.Outcome State Fault Refusal := .next (s.drive resultReserved)

end Sys2Proof.Machine
end

