-- ==== Sys2Proof/Machine/Encoder.lean ====
section
/-! DEFINITION. The NaN-box encoder: the four constructors (spec/41_encode.md). Each reports `ok = 1` (R102). -/

namespace Sys2Proof.Machine

open Sys2Proof

/-- The box of a double: the bit pattern unchanged, NaN or not (R95). -/
def boxFloat (v : Word) : Word := v

/-- The box of an `i64`: tag, then sign `v < 0`, then the low 48 bits of the absolute value (R96). -/
def boxSigned (v : Word) : Word :=
  setPayload (setSign (setTag template tagSignedInt) (signOf v)) (payloadOf (magnitude64 v))

/-- The box of a `u64`: tag, then the low 48 bits; the sign bit stays the template's (R97). -/
def boxUnsigned (v : Word) : Word := setPayload (setTag template tagUnsignedInt) (payloadOf v)

/-- The box of an address: tag, then the low 48 bits; the sign bit stays the template's (R98; the spec's decision D19). -/
def boxPointer (v : Word) : Word := setPayload (setTag template tagPointer) (payloadOf v)

/-- `from_float` (R95). -/
def execFromFloat (s : State) : Host.Outcome State Fault Refusal := .next (s.drive (resultPresent (boxFloat s.a)))

/-- `from_signed` (R96). -/
def execFromSigned (s : State) : Host.Outcome State Fault Refusal := .next (s.drive (resultPresent (boxSigned s.a)))

/-- `from_unsigned` (R97). -/
def execFromUnsigned (s : State) : Host.Outcome State Fault Refusal := .next (s.drive (resultPresent (boxUnsigned s.a)))

/-- `from_pointer` (R98). -/
def execFromPointer (s : State) : Host.Outcome State Fault Refusal := .next (s.drive (resultPresent (boxPointer s.a)))

end Sys2Proof.Machine
end

