-- ==== Sys2Proof/Machine/Classifier.lean ====
section
/-! DEFINITION. The type-tag classifier: `classify` and the four tests (spec/42_classify.md). -/

namespace Sys2Proof.Machine

open Sys2Proof

/-- The variant that a NaN pattern's tag selects (R58, R105: 1 to Float, 2 to SignedInt, 3 to UnsignedInt, 4 to Pointer;
any other is the error that carries the tag). -/
def classOfTag (t : Tag) : Class :=
  if t = 1#4 then .ok .float
  else if t = 2#4 then .ok .signedInt
  else if t = 3#4 then .ok .unsignedInt
  else if t = 4#4 then .ok .pointer
  else .err t

/-- `Classify` (R105). -/
def classifyWord (w : Word) : Class := if isNaN w then classOfTag (tagOf w) else .ok .float

/-- Whether `Classify` answers a given variant (R107 to R109, R119 to R122). -/
def isVariant (v : Variant) (w : Word) : Bool := classifyWord w == .ok v

/-- `classify` (R105). -/
def execClassify (s : State) : Host.Outcome State Fault Refusal := .next (s.drive (resultClass (classifyWord s.a)))

/-- `is_float`: not a NaN, which is NOT "classify says Float" on tag-1 NaN patterns (R106, C3). -/
def execIsFloat (s : State) : Host.Outcome State Fault Refusal := .next (s.drive (resultBool (!isNaN s.a)))

/-- `is_signed` (R107). -/
def execIsSigned (s : State) : Host.Outcome State Fault Refusal := .next (s.drive (resultBool (isVariant .signedInt s.a)))

/-- `is_unsigned` (R108). -/
def execIsUnsigned (s : State) : Host.Outcome State Fault Refusal :=
  .next (s.drive (resultBool (isVariant .unsignedInt s.a)))

/-- `is_pointer` (R109). -/
def execIsPointer (s : State) : Host.Outcome State Fault Refusal := .next (s.drive (resultBool (isVariant .pointer s.a)))

end Sys2Proof.Machine
end

