-- ==== Sys2Proof/Machine/Extractor.lean ====
section
/-! DEFINITION. The payload extractor: the four total `as_*` operations, which never look at the tag
(spec/43_extract.md section 1, R123). -/

namespace Sys2Proof.Machine

open Sys2Proof

/-- The double of a word: the identity (R115). -/
def floatValue (w : Word) : Word := w

/-- The `i64` of a word: magnitude and sign turned into two's complement; minus zero gives 0 (R116, R124). -/
def signedValue (w : Word) : Word :=
  if signOf w then neg64 (zextPayload (payloadOf w)) else zextPayload (payloadOf w)

/-- The `u64` of a word: the payload, zero-extended (R117). -/
def unsignedValue (w : Word) : Word := zextPayload (payloadOf w)

/-- The address of a word: the payload, zero-extended and never sign-extended (R118). -/
def pointerValue (w : Word) : Word := zextPayload (payloadOf w)

/-- `as_float` (R115). -/
def execAsFloat (s : State) : Host.Outcome State Fault Refusal := .next (s.drive (resultPresent (floatValue s.a)))

/-- `as_signed` (R116). -/
def execAsSigned (s : State) : Host.Outcome State Fault Refusal := .next (s.drive (resultPresent (signedValue s.a)))

/-- `as_unsigned` (R117). -/
def execAsUnsigned (s : State) : Host.Outcome State Fault Refusal := .next (s.drive (resultPresent (unsignedValue s.a)))

/-- `as_pointer` (R118). -/
def execAsPointer (s : State) : Host.Outcome State Fault Refusal := .next (s.drive (resultPresent (pointerValue s.a)))

end Sys2Proof.Machine
end

