-- ==== Sys2Proof/Machine/Equality.lean ====
section
/-! DEFINITION. Equality of two boxed values (spec/44_equality.md). -/

namespace Sys2Proof.Machine

open Sys2Proof

/-- The magnitude bits of a double, `x[62:0]`, are all zero: it is plus or minus zero (R131). -/
def isFloatZero (w : Word) : Bool := w &&& ~~~signMask == 0#64

/-- `FloatEq`, IEEE equality on bit patterns (R131; its table is the spec's general knowledge G5). -/
def floatEq (x z : Word) : Bool :=
  if isNaN x || isNaN z then false
  else if isFloatZero x && isFloatZero z then true
  else x == z

/-- The `SignedInt` line of R130: equal magnitudes, and equal signs unless the magnitude is zero. -/
def signedFieldsEq (x z : Word) : Bool :=
  payloadOf x == payloadOf z && (signOf x == signOf z || payloadOf x == 0#48)

/-- The `UnsignedInt` and `Pointer` lines of R130: equal payloads; the sign bit is not compared. -/
def payloadFieldsEq (x z : Word) : Bool := payloadOf x == payloadOf z

/-- The value `e` of R130: classifications must match, and the typed values under them. -/
def boxedEq (x z : Word) : Bool :=
  match classifyWord x, classifyWord z with
  | .ok .float, .ok .float => floatEq x z
  | .ok .signedInt, .ok .signedInt => signedFieldsEq x z
  | .ok .unsignedInt, .ok .unsignedInt => payloadFieldsEq x z
  | .ok .pointer, .ok .pointer => payloadFieldsEq x z
  | _, _ => false

/-- `eq` (R130). -/
def execEq (s : State) : Host.Outcome State Fault Refusal := .next (s.drive (resultBool (boxedEq s.a s.b)))

end Sys2Proof.Machine
end

