-- ==== Sys2Proof/Machine/Fallible.lean ====
section
/-! DEFINITION. The NaN-box decoder: the four fallible `get_*` operations, which classify first and extract only on a
match (spec/43_extract.md section 2). -/

namespace Sys2Proof.Machine

open Sys2Proof

/-- The value if `Classify` answers the variant asked for, else absence (section 2's shared contract; D10). -/
def valueIf (v : Variant) (w value : Word) : Result := if isVariant v w then resultPresent value else resultAbsent

/-- `get_float`: the condition is `classify`'s, so a tag-1 NaN pattern is present (R119). -/
def execGetFloat (s : State) : Host.Outcome State Fault Refusal := .next (s.drive (valueIf .float s.a (floatValue s.a)))

/-- `get_signed` (R120). -/
def execGetSigned (s : State) : Host.Outcome State Fault Refusal :=
  .next (s.drive (valueIf .signedInt s.a (signedValue s.a)))

/-- `get_unsigned` (R121). -/
def execGetUnsigned (s : State) : Host.Outcome State Fault Refusal :=
  .next (s.drive (valueIf .unsignedInt s.a (unsignedValue s.a)))

/-- `get_pointer` (R122). -/
def execGetPointer (s : State) : Host.Outcome State Fault Refusal :=
  .next (s.drive (valueIf .pointer s.a (pointerValue s.a)))

end Sys2Proof.Machine
end

