-- ==== Sys2Proof/Machine/Template.lean ====
section
/-! DEFINITION. The quiet-NaN template generator (spec/40_primitives_template.md). -/

namespace Sys2Proof.Machine

/-- `nan_template`: the constant; `a` and `b` are ignored (R89). -/
def execNanTemplate (s : State) : Host.Outcome State Fault Refusal := .next (s.drive (resultPresent template))

end Sys2Proof.Machine
end

