-- ==== Sys2Proof/Machine/Dispatch.lean ====
section
/-! DEFINITION. One arm per operation, each one direct call of its meaning (R66). -/

namespace Sys2Proof.Machine

open Sys2Proof

def exec (i : Instr) (s : State) : Host.Outcome State Fault Refusal :=
  match i with
  | .nanTemplate => Sys2Proof.Machine.execNanTemplate s
  | .fromFloat => Sys2Proof.Machine.execFromFloat s
  | .fromSigned => Sys2Proof.Machine.execFromSigned s
  | .fromUnsigned => Sys2Proof.Machine.execFromUnsigned s
  | .fromPointer => Sys2Proof.Machine.execFromPointer s
  | .classify => Sys2Proof.Machine.execClassify s
  | .isFloat => Sys2Proof.Machine.execIsFloat s
  | .isSigned => Sys2Proof.Machine.execIsSigned s
  | .isUnsigned => Sys2Proof.Machine.execIsUnsigned s
  | .isPointer => Sys2Proof.Machine.execIsPointer s
  | .eq => Sys2Proof.Machine.execEq s
  | .asFloat => Sys2Proof.Machine.execAsFloat s
  | .asSigned => Sys2Proof.Machine.execAsSigned s
  | .asUnsigned => Sys2Proof.Machine.execAsUnsigned s
  | .asPointer => Sys2Proof.Machine.execAsPointer s
  | .getFloat => Sys2Proof.Machine.execGetFloat s
  | .getSigned => Sys2Proof.Machine.execGetSigned s
  | .getUnsigned => Sys2Proof.Machine.execGetUnsigned s
  | .getPointer => Sys2Proof.Machine.execGetPointer s

end Sys2Proof.Machine
end

