-- ==== Sys2Proof/Machine/Step.lean ====
section
/-! DEFINITION. One step is one evaluation of the levels on the input ports (R20, R28, log 5), and how the host puts an
operation code where the step reads it. -/

namespace Sys2Proof.Machine

open Sys2Proof

/-- One evaluation: a reserved code is decided first and alone (R138 (1)); otherwise exactly one rule applies. -/
def step (s : State) : Host.Outcome State Fault Refusal :=
  match decode s.op with
  | .instr i => exec i s
  | .reserved _ => execReserved s

/-- The state with a table word's code on port `op`, where the step reads the operation from (R49: "the operation is
selected by the level on `op` at the evaluation"; logs 3 and 4). Nothing else changes. -/
def State.withFetchWord (s : State) (nbits w : Nat) : State := { s with op := opCodeOfTableWord nbits w }

end Sys2Proof.Machine
end

