-- ==== Sys2Proof/Safety.lean ====
section
/-! DEFINITION. What claims are stated in: the value a word stands for, and the settled state, both written with numbers
(fields by division and remainder, integers as integers) and not with the machine's masks and shifts. -/

namespace Sys2Proof.Safety

open Sys2Proof.Machine

/-- Bit 63 of a word, as 0 or 1 (R55 `S`). -/
def signField (w : Word) : Nat := w.toNat / 2 ^ 63

/-- Bits 62:52 of a word (R55 `E`). -/
def exponentField (w : Word) : Nat := w.toNat / 2 ^ 52 % 2 ^ 11

/-- Bits 51:48 of a word (R55 `T`). -/
def tagField (w : Word) : Nat := w.toNat / 2 ^ 48 % 2 ^ 4

/-- Bits 47:0 of a word (R55 `P`). -/
def payloadField (w : Word) : Nat := w.toNat % 2 ^ 48

/-- Bits 51:0 of a word, the IEEE fraction (R55 `M`). -/
def mantissaField (w : Word) : Nat := w.toNat % 2 ^ 52

/-- A NaN pattern: `E = 0x7FF` and `M ≠ 0` (R57). -/
def NaNPattern (w : Word) : Bool := decide (exponentField w = 0x7FF ∧ mantissaField w ≠ 0)

/-- The logical variant of a word, none for an unrecognized tag (R56, R58, R105). -/
def variantOf (w : Word) : Option Variant :=
  if NaNPattern w then
    match tagField w with
    | 1 => some .float
    | 2 => some .signedInt
    | 3 => some .unsignedInt
    | 4 => some .pointer
    | _ => none
  else some .float

/-- The integer that sign and magnitude stand for, `(-1)^S * P` (R124). -/
def signedNumber (w : Word) : Int := if signField w = 1 then -(payloadField w : Int) else payloadField w

/-- A typed value: `Float(f64)`, `SignedInt(i64)`, `UnsignedInt(u64)` or `Pointer(address)` (R29). -/
inductive Value where
  | float (bits : Word)
  | signedInt (z : Int)
  | unsignedInt (n : Nat)
  | pointer (address : Nat)
deriving DecidableEq, Repr

/-- The typed value a word holds, none for an unrecognized tag (R29, R59, R60). -/
def valueOf (w : Word) : Option Value :=
  match variantOf w with
  | some .float => some (.float w)
  | some .signedInt => some (.signedInt (signedNumber w))
  | some .unsignedInt => some (.unsignedInt (payloadField w))
  | some .pointer => some (.pointer (payloadField w))
  | none => none

/-- IEEE equality of two doubles: neither is a NaN, and they are the same word or both a zero (R131). -/
def FloatsEqual (x z : Word) : Prop :=
  ¬ NaNPattern x ∧ ¬ NaNPattern z ∧ (x = z ∨ (x.toNat % 2 ^ 63 = 0 ∧ z.toNat % 2 ^ 63 = 0))

/-- Equality of typed values of one variant (R130). -/
def Value.Equal : Value → Value → Prop
  | .float x, .float z => FloatsEqual x z
  | .signedInt m, .signedInt n => m = n
  | .unsignedInt m, .unsignedInt n => m = n
  | .pointer m, .pointer n => m = n
  | _, _ => False

/-- Two words hold equal boxed values: both have a typed value, and these are equal (R130). -/
def SameValue (x z : Word) : Prop := ∃ u v, valueOf x = some u ∧ valueOf z = some v ∧ u.Equal v

/-- A Boolean answer: 1 in `y` when it holds and 0 when not, `ok` set (R106, R130). -/
def Tells (c : Prop) (y : Word) (ok : Bool) : Prop := ok = true ∧ (c → y.toNat = 1) ∧ (¬ c → y.toNat = 0)

/-- An answer for a word that holds a typed value of the kind asked for, and absence otherwise (R119 to R122). -/
def Yields (present : Prop) (isValue : Prop) (y : Word) (ok : Bool) : Prop :=
  (present → isValue ∧ ok = true) ∧ (¬ present → y.toNat = 0 ∧ ok = false)

/-- The word with the given sign bit, an exponent of ones, a tag and a 48-bit magnitude, as a number (R62). -/
def boxNumber (sign tag magnitude : Nat) : Nat := sign * 2 ^ 63 + 0x7FF * 2 ^ 52 + tag * 2 ^ 48 + magnitude % 2 ^ 48

/-- The word `{S, 0x7FF, T, P}` (R55, R62). -/
def boxOf (sign : Bool) (tag : Tag) (payload : Payload) : Word := BitVec.ofBool sign ++ 0x7FF#11 ++ tag ++ payload

/-- What the outputs are for the levels on the input ports: the operation map R66 by number, the result of each rule as
a number, and R67 for every other code. -/
def Answers (op : OpCode) (a b y : Word) (ok ill : Bool) : Prop :=
  match op.toNat with
  | 0x00 => (y.toNat = boxNumber 0 0 0 ∧ ok = true) ∧ ill = false
  | 0x01 => (y = a ∧ ok = true) ∧ ill = false
  | 0x02 => (y.toNat = boxNumber (if a.toInt < 0 then 1 else 0) 2 a.toInt.natAbs ∧ ok = true) ∧ ill = false
  | 0x03 => (y.toNat = boxNumber 0 3 a.toNat ∧ ok = true) ∧ ill = false
  | 0x04 => (y.toNat = boxNumber 0 4 a.toNat ∧ ok = true) ∧ ill = false
  | 0x08 =>
    (match variantOf a with
      | some .float => y.toNat = 1 ∧ ok = true
      | some .signedInt => y.toNat = 2 ∧ ok = true
      | some .unsignedInt => y.toNat = 3 ∧ ok = true
      | some .pointer => y.toNat = 4 ∧ ok = true
      | none => y.toNat = tagField a ∧ ok = false) ∧ ill = false
  | 0x09 => Tells (¬ NaNPattern a) y ok ∧ ill = false
  | 0x0A => Tells (variantOf a = some .signedInt) y ok ∧ ill = false
  | 0x0B => Tells (variantOf a = some .unsignedInt) y ok ∧ ill = false
  | 0x0C => Tells (variantOf a = some .pointer) y ok ∧ ill = false
  | 0x10 => Tells (SameValue a b) y ok ∧ ill = false
  | 0x11 => (y = a ∧ ok = true) ∧ ill = false
  | 0x12 => (y.toInt = signedNumber a ∧ ok = true) ∧ ill = false
  | 0x13 => (y.toNat = payloadField a ∧ ok = true) ∧ ill = false
  | 0x14 => (y.toNat = payloadField a ∧ ok = true) ∧ ill = false
  | 0x19 => Yields (variantOf a = some .float) (y = a) y ok ∧ ill = false
  | 0x1A => Yields (variantOf a = some .signedInt) (y.toInt = signedNumber a) y ok ∧ ill = false
  | 0x1B => Yields (variantOf a = some .unsignedInt) (y.toNat = payloadField a) y ok ∧ ill = false
  | 0x1C => Yields (variantOf a = some .pointer) (y.toNat = payloadField a) y ok ∧ ill = false
  | _ => (y.toNat = 0 ∧ ok = false) ∧ ill = true

/-- A settled state: the outputs are the function of the inputs that the rules give (R155: "Its outputs are at all times
the function of its inputs given by the operation rules"). A state in which the caller has just presented new inputs is
not settled until the next step (log 5). -/
def Settled (s : State) : Prop := Answers s.op s.a s.b s.y s.ok s.ill

/-- An evaluation in the sense of R11 and R28, `(op, a, b) -> (y, ok, ill)`: from every state, presenting the inputs and
taking one step puts the result on the outputs and leaves the inputs as presented. -/
def Evaluates (op : OpCode) (a b y : Word) (ok ill : Bool) : Prop :=
  ∀ s : State, step (s.present op a b) = .next { op := op, a := a, b := b, y := y, ok := ok, ill := ill }

/-- How many of the 2^64 words a Boolean test holds for (R64). -/
def countWords (c : Word → Bool) : Nat := ((Finset.range (2 ^ 64)).filter fun n => c (BitVec.ofNat 64 n) = true).card

/-- The thirteen reserved codes, as R67 lists them. -/
def reservedCodes : List OpCode :=
  [0x05#5, 0x06#5, 0x07#5, 0x0D#5, 0x0E#5, 0x0F#5, 0x15#5, 0x16#5, 0x17#5, 0x18#5, 0x1D#5, 0x1E#5, 0x1F#5]

/-- A NaN pattern whose tag is not 2, 3 or 4: no `is_*` test is 1 for it (R110) and `eq` does not find it equal to
itself (R132). -/
def ForeignToTests (w : Word) : Bool := NaNPattern w && decide (tagField w ≠ 2 ∧ tagField w ≠ 3 ∧ tagField w ≠ 4)

end Sys2Proof.Safety
end

