-- ==== Sys2Proof/Certificates/Slice0/Obligations.lean ====
section
/-! DEFINITION. The statements for the provers. Each is about the machine of Sys2Proof.Machine; the fields, the values and
the settled state they speak of are Sys2Proof.Safety's. -/

open Sys2Proof Sys2Proof.Machine Sys2Proof.Safety

/-- Seven codes of the operation map, bit by bit: one of each group's first and a reserved one between two groups (R66,
R67; the codes are the spec's own decisions D2, D3). -/
def Obligations.WrittenCodesDecode : Prop :=
  decode 0b00000#5 = .instr .nanTemplate ∧ decode 0b00010#5 = .instr .fromSigned ∧
  decode 0b01000#5 = .instr .classify ∧ decode 0b10000#5 = .instr .eq ∧ decode 0b10100#5 = .instr .asPointer ∧
  decode 0b11001#5 = .instr .getFloat ∧ decode 0b11000#5 = .reserved 0b11000#5

/-- A step is the meaning of the decoded operation, with nothing added around it: NBC has no program counter to move
(R22, R65, R66; that a step is one evaluation is the model's choice, log 5). -/
def Obligations.StepRunsDecodedOperation : Prop :=
  ∀ (s : State) (i : Instr), decode s.op = .instr i → step s = exec i s

/-- R67, and R66's "for every code of R66, `ill <- 0`" (the spec's own decision D3): the reserved codes are those R67
lists, they have a definite result, and no other code sets `ill`. -/
def Obligations.ReservedCodesReportIllegal : Prop :=
  (∀ s : State, s.op ∈ reservedCodes → step s = .next { s with y := 0#64, ok := false, ill := true }) ∧
  (∀ s t : State, step s = .next t → (t.ill = true ↔ s.op ∈ reservedCodes))

/-- Decode and encode agree on every word that can be placed: the decoder compares all five bits (R66) and the encoder is
`{grp, var}` (R65). That a placed word's bits above the fifth do not reach the port is the model's reading (log 4). -/
def Obligations.DecodeAndEncodeAgree : Prop :=
  ∀ (i : Instr) (nbits w : Nat), 5 ≤ nbits → (decodeTableWord nbits w = some i ↔ w % 32 = (encode i).toNat)

/-- Placing a code on port `op` makes the very next step run it, and changes nothing else (R49; how an evaluation comes to
run is the model's choice, log 3). -/
def Obligations.PlacedWordRunsItsOperation : Prop :=
  ∀ (s : State) (i : Instr) (nbits w : Nat), decodeTableWord nbits w = some i →
    step (s.withFetchWord nbits w) = exec i (s.withFetchWord nbits w) ∧
    { s.withFetchWord nbits w with op := s.op } = s

/-- R28 ("an operand an operation does not use has no effect on any output"; the spec's own decision D18) for evaluations
as R71 writes them: the operands arrive on `a` and `b`, and nothing else reaches the outputs. What a port without an
operand holds is left to the state, whose every level is allowed (log 7). -/
def Obligations.WrittenEvaluationDeterminesItsResult : Prop :=
  ∀ e : Evaluation, e.wellFormed = true →
    (∀ s : State, step (s.presentEvaluation e) = exec e.instr (s.presentEvaluation e) ∧
      (∀ x, e.operands[0]? = some x → (s.presentEvaluation e).a = x) ∧
      (∀ x, e.operands[1]? = some x → (s.presentEvaluation e).b = x)) ∧
    (∃ r : Result, ∀ s : State, ∃ t, step (s.presentEvaluation e) = .next t ∧ t.y = r.y ∧ t.ok = r.ok ∧ t.ill = r.ill)

/-- R135: every evaluation of every `op`, reserved codes included, produces a definite result. -/
def Obligations.EveryStepGoesOn : Prop :=
  ∀ s : State, ∃ t, step s = .next t

/-- The frame of every operation: `op`, `a` and `b` are inputs (R28), and no operation modifies a word in place (R30). -/
def Obligations.OperationsKeepTheInputs : Prop :=
  ∀ (i : Instr) (s t : State), exec i s = .next t → t.op = s.op ∧ t.a = s.a ∧ t.b = s.b

/-- R31: no output depends on earlier evaluations, which are all that the old outputs could carry. -/
def Obligations.OutputsAreAFunctionOfTheInputs : Prop :=
  ∀ s s' : State, s.op = s'.op → s.a = s'.a → s.b = s'.b →
    ∃ t t', step s = .next t ∧ step s' = .next t' ∧ t.y = t'.y ∧ t.ok = t'.ok ∧ t.ill = t'.ill

/-- R43: "presenting the same inputs again gives the same outputs", so repeating an evaluation is unobservable. -/
def Obligations.RepeatedEvaluationIsUnobservable : Prop :=
  ∀ s t : State, step s = .next t → step t = .next t

/-- At reset the outputs are the function of the inputs (R155). The input levels at reset are the model's DESIGN CHOICE
(log 2). -/
def Obligations.ResetIsSettled : Prop := Settled State.reset

/-- The invariant of the machine: `Settled`, written with numbers, holds after every step from every state, settled or
not (so in particular a step keeps it), and a step keeps the inputs (R155, R66, R67 and the rule of each operation, among
them the spec's own decisions D2 to D5, D8 to D13, D18, D19, D23). -/
def Obligations.EveryStepSettlesThePorts : Prop :=
  ∀ s t : State, step s = .next t → Settled t ∧ t.op = s.op ∧ t.a = s.a ∧ t.b = s.b

/-- Two designs are one: `Settled` (numbers) holds exactly of the fixed points of `step` (masks and shifts). R155 and R157:
with the inputs held, the outputs stay what they are. -/
def Obligations.SettledExactlyWhenStepChangesNothing : Prop :=
  ∀ s : State, Settled s ↔ step s = .next s

/-- R88, R89: the constant, whatever the operands (its sign bit is the spec's own decision D4). -/
def Obligations.TemplateResult : Prop :=
  ∀ s : State, exec .nanTemplate s = .next { s with y := 0x7FF0_0000_0000_0000#64, ok := true, ill := false }

/-- R95 and R115: the identity on all 2^64 words. -/
def Obligations.FloatsPassUnchanged : Prop :=
  ∀ s : State,
    exec .fromFloat s = .next { s with y := s.a, ok := true, ill := false } ∧
    exec .asFloat s = .next { s with y := s.a, ok := true, ill := false }

/-- R96 and R99 (b): sign-magnitude of the `i64` on `a`, the magnitude reduced modulo 2^48 (for the most negative integer
and for the silent truncation, the spec's own decisions D5, D6; two's complement, its general knowledge G8). -/
def Obligations.FromSignedResult : Prop :=
  ∀ s : State, exec .fromSigned s = .next { s with
    y := boxOf (decide (s.a.toInt < 0)) 2#4 (BitVec.ofNat 48 s.a.toInt.natAbs), ok := true, ill := false }

/-- R97 and R98: the low 48 bits, bits 63:48 dropped (the sign bit and the silence are the spec's own decisions D4, D6, D7,
D19). -/
def Obligations.FromUnsignedAndFromPointerResult : Prop :=
  ∀ s : State,
    exec .fromUnsigned s = .next { s with
      y := boxOf false 3#4 (BitVec.ofNat 48 s.a.toNat), ok := true, ill := false } ∧
    exec .fromPointer s = .next { s with
      y := boxOf false 4#4 (BitVec.ofNat 48 s.a.toNat), ok := true, ill := false }

/-- R102: construction is total and reports no failure. -/
def Obligations.ConstructionNeverFails : Prop :=
  ∀ (i : Instr) (s : State), i.group = 0#2 → ∃ t, exec i s = .next t ∧ t.ok = true ∧ t.ill = false

/-- R105's result table (what the error carries, and the numbering, are the spec's own decisions D8, D9). -/
def Obligations.ClassifyResult : Prop :=
  ∀ s : State,
    (¬ NaNPattern s.a → exec .classify s = .next { s with y := 1#64, ok := true, ill := false }) ∧
    (NaNPattern s.a → exec .classify s = .next { s with
      y := BitVec.ofNat 64 (tagField s.a), ok := decide (1 ≤ tagField s.a ∧ tagField s.a ≤ 4), ill := false })

/-- R106: "simply not NaN", infinities included (C3; the Boolean's shape is the spec's own decision D11). -/
def Obligations.IsFloatResult : Prop :=
  ∀ s : State, exec .isFloat s = .next { s with
    y := if NaNPattern s.a then 0#64 else 1#64, ok := true, ill := false }

/-- R107, R108, R109: a NaN pattern with the one tag; the sign bit is not read (the Boolean's shape, and `y = 0, ok = 1` on
an unrecognized tag, R111, are the spec's own decision D11). -/
def Obligations.VariantTestResults : Prop :=
  ∀ s : State,
    exec .isSigned s = .next { s with
      y := if NaNPattern s.a ∧ tagField s.a = 2 then 1#64 else 0#64, ok := true, ill := false } ∧
    exec .isUnsigned s = .next { s with
      y := if NaNPattern s.a ∧ tagField s.a = 3 then 1#64 else 0#64, ok := true, ill := false } ∧
    exec .isPointer s = .next { s with
      y := if NaNPattern s.a ∧ tagField s.a = 4 then 1#64 else 0#64, ok := true, ill := false }

/-- R116: the value, its range, and the shape of a negative result; neither tag nor exponent is read (for a word of another
variant, R123, the spec's own decision D23; two's complement, its general knowledge G8). -/
def Obligations.AsSignedResult : Prop :=
  ∀ s : State, ∃ y : Word,
    exec .asSigned s = .next { s with y := y, ok := true, ill := false } ∧
    y.toInt = signedNumber s.a ∧ -(2 ^ 48 - 1) ≤ y.toInt ∧ y.toInt ≤ 2 ^ 48 - 1 ∧
    (signField s.a = 1 → payloadField s.a ≠ 0 →
      y.extractLsb' 48 16 = 0xFFFF#16 ∧ y.extractLsb' 0 48 = -(s.a.extractLsb' 0 48))

/-- R117 and R118: the payload, zero-extended; the same function (for a word of another variant, R123, the spec's own
decision D23; no sign extension of bit 47, its decision D7). -/
def Obligations.AsUnsignedAndAsPointerResult : Prop :=
  ∀ s : State,
    exec .asUnsigned s = .next { s with y := BitVec.ofNat 64 (payloadField s.a), ok := true, ill := false } ∧
    exec .asPointer s = .next { s with y := BitVec.ofNat 64 (payloadField s.a), ok := true, ill := false }

/-- R119 to R122 and their shared contract; a tag-1 NaN pattern has the variant `Float` (C7). The data output on absence is
the spec's own decision D10, two's complement its general knowledge G8. -/
def Obligations.FallibleExtractionResults : Prop :=
  ∀ s : State,
    exec .getFloat s = .next { s with
      y := if variantOf s.a = some .float then s.a else 0#64,
      ok := decide (variantOf s.a = some .float), ill := false } ∧
    exec .getSigned s = .next { s with
      y := if variantOf s.a = some .signedInt then BitVec.ofInt 64 (signedNumber s.a) else 0#64,
      ok := decide (variantOf s.a = some .signedInt), ill := false } ∧
    exec .getUnsigned s = .next { s with
      y := if variantOf s.a = some .unsignedInt then BitVec.ofNat 64 (payloadField s.a) else 0#64,
      ok := decide (variantOf s.a = some .unsignedInt), ill := false } ∧
    exec .getPointer s = .next { s with
      y := if variantOf s.a = some .pointer then BitVec.ofNat 64 (payloadField s.a) else 0#64,
      ok := decide (variantOf s.a = some .pointer), ill := false }

/-- R130 and R131, with "the typed values match" read as equality of `Value`s and not of fields (unrecognized words: the
spec's own decision D12; the IEEE table: its general knowledge G5). -/
def Obligations.EqualityResult : Prop :=
  ∀ s : State,
    (SameValue s.a s.b → exec .eq s = .next { s with y := 1#64, ok := true, ill := false }) ∧
    (¬ SameValue s.a s.b → exec .eq s = .next { s with y := 0#64, ok := true, ill := false })

/-- R101 item 1 (the spec's own derivation), with the fallible accessor and the test added (the
Boolean's shape is its decision D11). -/
def Obligations.FloatRoundTrip : Prop :=
  ∀ v b c : Word, ¬ NaNPattern v → ∃ w : Word,
    Evaluates 0x01#5 v b w true false ∧ Evaluates 0x08#5 w c 1#64 true false ∧ Evaluates 0x09#5 w c 1#64 true false ∧
    Evaluates 0x11#5 w c v true false ∧ Evaluates 0x19#5 w c v true false

/-- R101 item 3 (the spec's own derivation; two's complement is its general knowledge G8), under R158's precondition. -/
def Obligations.SignedRoundTrip : Prop :=
  ∀ v b c : Word, -2 ^ 48 < v.toInt → v.toInt < 2 ^ 48 → ∃ w : Word,
    Evaluates 0x02#5 v b w true false ∧ Evaluates 0x08#5 w c 2#64 true false ∧
    Evaluates 0x12#5 w c v true false ∧ Evaluates 0x1A#5 w c v true false

/-- R101 items 2 and 4 (the spec's own derivation), under R158's precondition. -/
def Obligations.UnsignedAndPointerRoundTrip : Prop :=
  ∀ v b c : Word, v.toNat < 2 ^ 48 →
    (∃ w : Word, Evaluates 0x03#5 v b w true false ∧ Evaluates 0x08#5 w c 3#64 true false ∧
      Evaluates 0x13#5 w c v true false ∧ Evaluates 0x1B#5 w c v true false) ∧
    (∃ w : Word, Evaluates 0x04#5 v b w true false ∧ Evaluates 0x08#5 w c 4#64 true false ∧
      Evaluates 0x14#5 w c v true false ∧ Evaluates 0x1C#5 w c v true false)

/-- R99 and R101 outside the exact ranges (the spec's own decisions D5, D6, D7; two's complement is its general knowledge
G8). -/
def Obligations.OutOfRangeValuesComeBackReduced : Prop :=
  ∀ v b c : Word,
    (∃ w y : Word, Evaluates 0x02#5 v b w true false ∧ Evaluates 0x12#5 w c y true false ∧
      y.toInt = v.toInt.sign * ((v.toInt.natAbs % 2 ^ 48 : Nat) : Int)) ∧
    (∃ w y : Word, Evaluates 0x03#5 v b w true false ∧ Evaluates 0x13#5 w c y true false ∧
      y.toNat = v.toNat % 2 ^ 48) ∧
    (∃ w y : Word, Evaluates 0x04#5 v b w true false ∧ Evaluates 0x14#5 w c y true false ∧
      y.toNat = v.toNat % 2 ^ 48)

/-- R100 and R63 (the spec's own derivation; that bit 51 stays clear is its decision D21, the Booleans' shape its
decision D11). -/
def Obligations.ConstructedWordsClassifyAsBuilt : Prop :=
  ∀ v b c : Word, ∀ n ∈ [2#3, 3#3, 4#3], ∃ w : Word,
    Evaluates (0#2 ++ n) v b w true false ∧ NaNPattern w ∧ w.getLsbD 51 = false ∧
    Evaluates 0x08#5 w c (n.setWidth 64) true false ∧ Evaluates 0x09#5 w c 0#64 true false ∧
    Evaluates 0x0A#5 w c (if n = 2#3 then 1#64 else 0#64) true false ∧
    Evaluates 0x0B#5 w c (if n = 3#3 then 1#64 else 0#64) true false ∧
    Evaluates 0x0C#5 w c (if n = 4#3 then 1#64 else 0#64) true false

/-- R110, for every word and not only for constructed ones (the spec's own derivation; C8; `ok = 1` on an unrecognized tag
and the Booleans' shape are its decision D11). -/
def Obligations.VariantTestsExcludeEachOther : Prop :=
  ∀ w b : Word, ∃ f s u p : Word,
    Evaluates 0x09#5 w b f true false ∧ Evaluates 0x0A#5 w b s true false ∧
    Evaluates 0x0B#5 w b u true false ∧ Evaluates 0x0C#5 w b p true false ∧
    f.toNat + s.toNat + u.toNat + p.toNat = if ForeignToTests w then 0 else 1

/-- R106's corner case and R161 (C3; the Boolean's shape is the spec's own decision D11). -/
def Obligations.ClassifyAndIsFloatDisagreeOnTagOne : Prop :=
  ∀ w b : Word,
    ((Evaluates 0x08#5 w b 1#64 true false ∧ Evaluates 0x09#5 w b 0#64 true false) ↔
      (NaNPattern w ∧ tagField w = 1)) ∧
    (Evaluates 0x09#5 w b 1#64 true false → Evaluates 0x08#5 w b 1#64 true false)

/-- R125's last sentence made exact: `Classify` returns one class, and an error matches no variant. -/
def Obligations.AtMostOneFallibleExtractorIsPresent : Prop :=
  ∀ w b : Word, ∃ (yf ys yu yp : Word) (kf ks ku kp : Bool) (yc : Word) (kc : Bool),
    Evaluates 0x19#5 w b yf kf false ∧ Evaluates 0x1A#5 w b ys ks false ∧
    Evaluates 0x1B#5 w b yu ku false ∧ Evaluates 0x1C#5 w b yp kp false ∧ Evaluates 0x08#5 w b yc kc false ∧
    kf.toNat + ks.toNat + ku.toNat + kp.toNat = kc.toNat

/-- The `get_X` line of R72 (the spec's own derivation), with the codes of `as_X` and `get_X` built from their group and the
variant's number as R65 does (absence and the unguarded `as_X` are its decisions D10, D23). -/
def Obligations.FallibleExtractionIsGuardedExtraction : Prop :=
  ∀ w b : Word, ∀ n ∈ [1#3, 2#3, 3#3, 4#3], ∃ (yc : Word) (kc : Bool) (ya : Word),
    Evaluates 0x08#5 w b yc kc false ∧ Evaluates (2#2 ++ n) w b ya true false ∧
    ((kc = true ∧ yc = n.setWidth 64) → Evaluates (3#2 ++ n) w b ya true false) ∧
    (¬ (kc = true ∧ yc = n.setWidth 64) → Evaluates (3#2 ++ n) w b 0#64 false false)

/-- R60 (the spec's own derivation): `S` takes part neither in the NaN test nor in classification, and is ignored for
`UnsignedInt` and `Pointer` (the results on words without the variant asked for are its decisions D8, D10, D11, D23). -/
def Obligations.SignBitDoesNotReachClassification : Prop :=
  ∀ (w b y : Word) (k : Bool),
    ∀ op ∈ [0x08#5, 0x09#5, 0x0A#5, 0x0B#5, 0x0C#5, 0x13#5, 0x14#5, 0x1B#5, 0x1C#5],
    (Evaluates op w b y k false ↔ Evaluates op (w ^^^ 0x8000_0000_0000_0000#64) b y k false)

/-- R132's first sentence (the spec's own derivation, from its decisions D12 and D13 and the IEEE table G5). -/
def Obligations.EqualityIsSymmetricAndTransitive : Prop :=
  (∀ x y r : Word, Evaluates 0x10#5 x y r true false → Evaluates 0x10#5 y x r true false) ∧
  (∀ x y z : Word, Evaluates 0x10#5 x y 1#64 true false → Evaluates 0x10#5 y z 1#64 true false →
    Evaluates 0x10#5 x z 1#64 true false)

/-- R132 and R163: where `eq` is not reflexive (tag 1 by NaN's own rule in the `Float` arm, the spec's
decision D13; the other tags by its decision D12). -/
def Obligations.EqualityIsReflexiveExceptOnForeignWords : Prop :=
  ∀ w : Word, Evaluates 0x10#5 w w (if ForeignToTests w then 0#64 else 1#64) true false

/-- R132: `eq` is coarser than bit equality in exactly three ways, all of them in bit 63 (the spec's own derivation,
from its decisions D12 and D13 and the IEEE table G5). -/
def Obligations.EqualityIsCoarserOnlyInTheSignBit : Prop :=
  ∀ x z : Word, x ≠ z →
    (Evaluates 0x10#5 x z 1#64 true false ↔
      x.toNat % 2 ^ 63 = z.toNat % 2 ^ 63 ∧
      (x.toNat % 2 ^ 63 = 0 ∨ (variantOf x = some .signedInt ∧ payloadField x = 0) ∨
        variantOf x = some .unsignedInt ∨ variantOf x = some .pointer))

/-- R162: for constructed in-range values, bit equality and `eq` agree, so boxing loses no distinction. -/
def Obligations.ConstructedValuesAreEqualOnlyWhenSame : Prop :=
  (∀ u v b : Word, -2 ^ 48 < u.toInt → u.toInt < 2 ^ 48 → -2 ^ 48 < v.toInt → v.toInt < 2 ^ 48 → ∃ x z : Word,
    Evaluates 0x02#5 u b x true false ∧ Evaluates 0x02#5 v b z true false ∧
    Evaluates 0x10#5 x z (if u = v then 1#64 else 0#64) true false) ∧
  (∀ u v b : Word, u.toNat < 2 ^ 48 → v.toNat < 2 ^ 48 → ∀ n ∈ [3#3, 4#3], ∃ x z : Word,
    Evaluates (0#2 ++ n) u b x true false ∧ Evaluates (0#2 ++ n) v b z true false ∧
    Evaluates 0x10#5 x z (if u = v then 1#64 else 0#64) true false)

/-- R99 (a) and R176 (the spec's own derivation). -/
def Obligations.ReboxingUnsignedAndPointerIsIdempotent : Prop :=
  ∀ v b c : Word, ∀ op ∈ [0x03#5, 0x04#5], ∃ w : Word,
    Evaluates op v b w true false ∧ Evaluates op (BitVec.ofNat 64 (v.toNat % 2 ^ 48)) c w true false ∧
    Evaluates op w c w true false

/-- R136 and R138: the conditions that show, and no others (the spec's own decisions D3, D6 to D8, D10
to D12, D23, D24). -/
def Obligations.OkIsClearOnlyForReportedConditions : Prop :=
  ∀ s t : State, step s = .next t →
    (t.ok = false ↔
      s.op ∈ reservedCodes ∨ (s.op = 0x08#5 ∧ variantOf s.a = none) ∨
      (s.op = 0x19#5 ∧ variantOf s.a ≠ some .float) ∨ (s.op = 0x1A#5 ∧ variantOf s.a ≠ some .signedInt) ∨
      (s.op = 0x1B#5 ∧ variantOf s.a ≠ some .unsignedInt) ∨ (s.op = 0x1C#5 ∧ variantOf s.a ≠ some .pointer))

/-- R90, and R87's last law behind R91 (the spec's own derivation). -/
def Obligations.StampedTemplateIsNaNUnlessAllZero : Prop :=
  (∀ (t : Tag) (p : Payload) (s : Bool),
    exponentField (setPayload (setSign (setTag template t) s) p) = 0x7FF ∧
    (isNaN (setPayload (setTag template t) p) = true ↔ t ≠ 0#4 ∨ p ≠ 0#48) ∧
    (isNaN (setPayload (setSign (setTag template t) s) p) = true ↔ t ≠ 0#4 ∨ p ≠ 0#48)) ∧
  (∀ (v w : Word) (t : Tag) (p : Payload), v.extractLsb' 52 12 = w.extractLsb' 52 12 →
    setPayload (setTag v t) p = setPayload (setTag w t) p)

/-- R87, its five laws in its order (the spec's own derivation, from R81 to R86): read after write; the bits each write
leaves alone, for every bit of the word; the three writes commute; the last write wins; a full stamp depends on the old
word only through `w[63:52]`. -/
def Obligations.FieldWritesObeyTheirLaws : Prop :=
  ∀ (w : Word) (t t' : Tag) (p p' : Payload) (s s' : Bool),
    (tagOf (setTag w t) = t ∧ payloadOf (setPayload w p) = p ∧ signOf (setSign w s) = s) ∧
    (∀ i, i < 64 →
      ((i < 48 ∨ 52 ≤ i) → (setTag w t).getLsbD i = w.getLsbD i) ∧
      (48 ≤ i → (setPayload w p).getLsbD i = w.getLsbD i) ∧
      (i ≠ 63 → (setSign w s).getLsbD i = w.getLsbD i)) ∧
    (setTag (setPayload w p) t = setPayload (setTag w t) p ∧ setTag (setSign w s) t = setSign (setTag w t) s ∧
      setSign (setPayload w p) s = setPayload (setSign w s) p) ∧
    (setTag (setTag w t) t' = setTag w t' ∧ setPayload (setPayload w p) p' = setPayload w p' ∧
      setSign (setSign w s) s' = setSign w s') ∧
    (∀ v : Word, v.extractLsb' 52 12 = w.extractLsb' 52 12 →
      setPayload (setTag v t) p = setPayload (setTag w t) p)

/-- R64's table (the spec's own derivation), row by row, on the classifier that `classify`, the tests, `get_*` and `eq`
share. -/
def Obligations.ClassificationCounts : Prop :=
  countWords (fun w => !isNaN w && classifyWord w == .ok .float) = 2 ^ 64 - 2 ^ 53 + 2 ∧
  countWords (fun w => isNaN w && classifyWord w == .ok .float) = 2 ^ 49 ∧
  countWords (fun w => classifyWord w == .ok .signedInt) = 2 ^ 49 ∧
  countWords (fun w => classifyWord w == .ok .unsignedInt) = 2 ^ 49 ∧
  countWords (fun w => classifyWord w == .ok .pointer) = 2 ^ 49 ∧
  countWords (fun w => classifyWord w == .err 0#4) = 2 ^ 49 - 2 ∧
  ∀ t : Tag, 5 ≤ t.toNat → countWords (fun w => classifyWord w == .err t) = 2 ^ 49
end

