-- ==== Sys2Proof/Laws/Operands.lean ====
section
/-! SUPPORT. The fields of a word: each primitive of R80 to R86 as a number, a word from its four fields, and the laws of
R87: a read after a write, a write and the other fields, the order of writes, the last write, the full stamp. -/

namespace Sys2Proof.Laws

open Sys2Proof.Machine Sys2Proof.Safety

/-- The exponent field as a bit vector (R55 `E`). -/
def exponentOf (w : Word) : BitVec 11 := w.extractLsb' 52 11

theorem toNat_boxOf (s : Bool) (t : Tag) (p : Payload) :
    (boxOf s t p).toNat = boxNumber s.toNat t.toNat p.toNat := by
  have ht := t.isLt
  have hp := p.isLt
  have e : (boxOf s t p).toNat = (BitVec.ofBool s ++ 0x7FF#11 ++ t ++ p : BitVec (1 + 11 + 4 + 48)).toNat := rfl
  rw [e, BitVec.toNat_append, BitVec.toNat_append, BitVec.toNat_append,
    ← Nat.shiftLeft_add_eq_or_of_lt hp, ← Nat.shiftLeft_add_eq_or_of_lt ht,
    ← Nat.shiftLeft_add_eq_or_of_lt (BitVec.isLt _)]
  simp [boxNumber, Nat.shiftLeft_eq]
  omega

theorem toNat_exponentOf (w : Word) : (exponentOf w).toNat = exponentField w := by
  simp [exponentOf, exponentField, Nat.shiftRight_eq_div_pow]

theorem toNat_tagOf (w : Word) : (tagOf w).toNat = tagField w := by
  have : tagOf w = w.extractLsb' 48 4 := by
    unfold tagOf tagMask Config.tagShift
    apply BitVec.eq_of_getLsbD_eq
    intro i hi
    interval_cases i <;> simp
  rw [this]
  simp [tagField, Nat.shiftRight_eq_div_pow]

theorem toNat_payloadOf (w : Word) : (payloadOf w).toNat = payloadField w := by
  have h : (w &&& payloadMask).toNat = w.toNat % 2 ^ 48 := Nat.and_two_pow_sub_one_eq_mod w.toNat 48
  rw [payloadOf, BitVec.toNat_setWidth, h, payloadField, Nat.mod_mod]

theorem toNat_signOf (w : Word) : (signOf w).toNat = signField w := by
  have := w.isLt
  have h : (signOf w).toNat = w.toNat / 2 ^ 63 % 2 := by
    simp [signOf, BitVec.getLsbD, Nat.testBit_eq_decide_div_mod_eq]
    rcases Nat.mod_two_eq_zero_or_one (w.toNat / 9223372036854775808) with h | h <;> simp [h]
  rw [h, signField]
  omega

theorem toNat_eq_fields (w : Word) :
    w.toNat = signField w * 2 ^ 63 + exponentField w * 2 ^ 52 + tagField w * 2 ^ 48 + payloadField w := by
  have := w.isLt
  simp only [signField, exponentField, tagField, payloadField]
  omega

theorem mantissaField_eq (w : Word) : mantissaField w = tagField w * 2 ^ 48 + payloadField w := by
  simp only [mantissaField, tagField, payloadField]
  omega

/-- A word is its four fields (R55). -/
theorem word_ext {v w : Word} (hs : signOf v = signOf w) (he : exponentOf v = exponentOf w)
    (ht : tagOf v = tagOf w) (hp : payloadOf v = payloadOf w) : v = w := by
  apply BitVec.eq_of_toNat_eq
  rw [toNat_eq_fields v, toNat_eq_fields w, ← toNat_signOf, ← toNat_signOf, ← toNat_exponentOf, ← toNat_exponentOf,
    ← toNat_tagOf, ← toNat_tagOf, ← toNat_payloadOf, ← toNat_payloadOf, hs, he, ht, hp]

@[simp] theorem signOf_boxOf (s : Bool) (t : Tag) (p : Payload) : signOf (boxOf s t p) = s := by
  have h := toNat_signOf (boxOf s t p)
  have ht := t.isLt
  have hp := p.isLt
  rw [signField, toNat_boxOf] at h
  simp only [boxNumber] at h
  cases s <;> cases hb : signOf (boxOf _ t p) <;> simp [hb] at h ⊢ <;> omega

@[simp] theorem exponentOf_boxOf (s : Bool) (t : Tag) (p : Payload) : exponentOf (boxOf s t p) = 0x7FF#11 := by
  have ht := t.isLt
  have hp := p.isLt
  apply BitVec.eq_of_toNat_eq
  rw [toNat_exponentOf, exponentField, toNat_boxOf]
  simp only [boxNumber]
  cases s <;> simp <;> omega

@[simp] theorem tagOf_boxOf (s : Bool) (t : Tag) (p : Payload) : tagOf (boxOf s t p) = t := by
  have ht := t.isLt
  have hp := p.isLt
  apply BitVec.eq_of_toNat_eq
  rw [toNat_tagOf, tagField, toNat_boxOf]
  simp only [boxNumber]
  cases s <;> simp <;> omega

@[simp] theorem payloadOf_boxOf (s : Bool) (t : Tag) (p : Payload) : payloadOf (boxOf s t p) = p := by
  have hp := p.isLt
  apply BitVec.eq_of_toNat_eq
  rw [toNat_payloadOf, payloadField, toNat_boxOf]
  simp only [boxNumber]
  cases s <;> simp <;> omega

/-- R24: the four masks are all of the word, and are pairwise disjoint; the mantissa is tag and payload. -/
theorem masks_partition :
    signMask ||| expMask ||| tagMask ||| payloadMask = BitVec.allOnes 64 ∧
    signMask &&& expMask = 0#64 ∧ signMask &&& tagMask = 0#64 ∧ signMask &&& payloadMask = 0#64 ∧
    expMask &&& tagMask = 0#64 ∧ expMask &&& payloadMask = 0#64 ∧ tagMask &&& payloadMask = 0#64 ∧
    mantMask = tagMask ||| payloadMask := by decide

/-- R88: the template is the exponent mask. -/
theorem template_eq_expMask : template = expMask := by decide

theorem toNat_and_expMask (w : Word) : (w &&& expMask).toNat = exponentField w * 2 ^ 52 := by
  have h : w &&& expMask = (exponentOf w).setWidth 64 <<< 52 := by
    unfold expMask exponentOf
    apply BitVec.eq_of_getLsbD_eq
    intro i hi
    interval_cases i <;> simp
  have := w.isLt
  rw [h]
  simp [exponentOf, exponentField, Nat.shiftLeft_eq, Nat.shiftRight_eq_div_pow]
  omega

theorem toNat_and_mantMask (w : Word) : (w &&& mantMask).toNat = mantissaField w :=
  Nat.and_two_pow_sub_one_eq_mod w.toNat 52

theorem NaNPattern_iff (w : Word) : NaNPattern w = true ↔ exponentField w = 0x7FF ∧ mantissaField w ≠ 0 := by
  rw [NaNPattern, decide_eq_true_iff]

/-- `IsNaN` as masks (R80) is the NaN pattern as fields (R57). -/
theorem isNaN_eq (w : Word) : isNaN w = NaNPattern w := by
  have he := toNat_and_expMask w
  have hm := toNat_and_mantMask w
  have e : expMask.toNat = 0x7FF * 2 ^ 52 := rfl
  have z : (0#64).toNat = 0 := rfl
  rw [Bool.eq_iff_iff, NaNPattern_iff, isNaN]
  simp only [Bool.and_eq_true, beq_iff_eq, bne_iff_ne, ne_eq, ← BitVec.toNat_inj, he, hm, e, z]
  omega

@[simp] theorem tagOf_setTag (w : Word) (t : Tag) : tagOf (setTag w t) = t := by
  unfold tagOf setTag tagMask Config.tagShift
  apply BitVec.eq_of_getLsbD_eq
  intro i hi
  interval_cases i <;> simp

@[simp] theorem payloadOf_setTag (w : Word) (t : Tag) : payloadOf (setTag w t) = payloadOf w := by
  unfold payloadOf setTag tagMask payloadMask Config.tagShift
  apply BitVec.eq_of_getLsbD_eq
  intro i hi
  interval_cases i <;> simp

@[simp] theorem signOf_setTag (w : Word) (t : Tag) : signOf (setTag w t) = signOf w := by
  simp [signOf, setTag, tagMask, Config.tagShift]

@[simp] theorem exponentOf_setTag (w : Word) (t : Tag) : exponentOf (setTag w t) = exponentOf w := by
  unfold exponentOf setTag tagMask Config.tagShift
  apply BitVec.eq_of_getLsbD_eq
  intro i hi
  interval_cases i <;> simp

@[simp] theorem tagOf_setPayload (w : Word) (p : Payload) : tagOf (setPayload w p) = tagOf w := by
  unfold tagOf setPayload tagMask payloadMask Config.tagShift
  apply BitVec.eq_of_getLsbD_eq
  intro i hi
  interval_cases i <;> simp

@[simp] theorem payloadOf_setPayload (w : Word) (p : Payload) : payloadOf (setPayload w p) = p := by
  unfold payloadOf setPayload payloadMask
  apply BitVec.eq_of_getLsbD_eq
  intro i hi
  interval_cases i <;> simp

@[simp] theorem signOf_setPayload (w : Word) (p : Payload) : signOf (setPayload w p) = signOf w := by
  simp [signOf, setPayload, payloadMask]

@[simp] theorem exponentOf_setPayload (w : Word) (p : Payload) : exponentOf (setPayload w p) = exponentOf w := by
  unfold exponentOf setPayload payloadMask
  apply BitVec.eq_of_getLsbD_eq
  intro i hi
  interval_cases i <;> simp

@[simp] theorem tagOf_setSign (w : Word) (s : Bool) : tagOf (setSign w s) = tagOf w := by
  unfold tagOf setSign tagMask signMask Config.tagShift Config.signShift
  apply BitVec.eq_of_getLsbD_eq
  intro i hi
  interval_cases i <;> simp

@[simp] theorem payloadOf_setSign (w : Word) (s : Bool) : payloadOf (setSign w s) = payloadOf w := by
  unfold payloadOf setSign signMask payloadMask Config.signShift
  apply BitVec.eq_of_getLsbD_eq
  intro i hi
  interval_cases i <;> simp

@[simp] theorem signOf_setSign (w : Word) (s : Bool) : signOf (setSign w s) = s := by
  cases s <;> simp [signOf, setSign, signMask, Config.signShift]

@[simp] theorem exponentOf_setSign (w : Word) (s : Bool) : exponentOf (setSign w s) = exponentOf w := by
  unfold exponentOf setSign signMask Config.signShift
  apply BitVec.eq_of_getLsbD_eq
  intro i hi
  interval_cases i <;> simp

@[simp] theorem signOf_template : signOf template = false := by decide

@[simp] theorem exponentOf_template : exponentOf template = 0x7FF#11 := by decide

@[simp] theorem payloadOf_template : payloadOf template = 0#48 := by decide

@[simp] theorem tagOf_template : tagOf template = 0#4 := by decide

/-- R87: the last write wins. -/
theorem setTag_setTag (w : Word) (t t' : Tag) : setTag (setTag w t) t' = setTag w t' := by
  apply word_ext <;> simp

theorem setPayload_setPayload (w : Word) (p p' : Payload) :
    setPayload (setPayload w p) p' = setPayload w p' := by
  apply word_ext <;> simp

theorem setSign_setSign (w : Word) (s s' : Bool) : setSign (setSign w s) s' = setSign w s' := by
  apply word_ext <;> simp

/-- R87: the three writes commute with each other. -/
theorem setTag_setPayload (w : Word) (t : Tag) (p : Payload) :
    setTag (setPayload w p) t = setPayload (setTag w t) p := by
  apply word_ext <;> simp

theorem setTag_setSign (w : Word) (t : Tag) (s : Bool) : setTag (setSign w s) t = setSign (setTag w t) s := by
  apply word_ext <;> simp

theorem setSign_setPayload (w : Word) (s : Bool) (p : Payload) :
    setSign (setPayload w p) s = setPayload (setSign w s) p := by
  apply word_ext <;> simp

/-- R87: a full stamp forgets the old mantissa. -/
theorem setPayload_setTag_congr {v w : Word} (hs : signOf v = signOf w) (he : exponentOf v = exponentOf w)
    (t : Tag) (p : Payload) : setPayload (setTag v t) p = setPayload (setTag w t) p := by
  apply word_ext <;> simp [hs, he]

theorem neg64_eq (v : Word) : neg64 v = -v := by
  rw [neg64, BitVec.neg_eq_not_add]

theorem signOf_iff (w : Word) : signOf w = true ↔ signField w = 1 := by
  rw [← toNat_signOf]; cases signOf w <;> simp

/-- The magnitude of an `i64` is the absolute value of its integer, for the most negative one too (R99 (b)). -/
theorem toNat_magnitude64 (v : Word) : (magnitude64 v).toNat = v.toInt.natAbs := by
  have h := signOf_iff v
  have := v.isLt
  unfold magnitude64
  simp only [h, signField, neg64_eq, BitVec.toInt_eq_toNat_cond]
  split <;> simp <;> split <;> omega
end Sys2Proof.Laws
end

