-- ==== Sys2Proof/Laws/Classifier.lean ====
section
/-! SUPPORT. The classifier in the terms of Safety: which variant a word has, once for every operation that asks. -/

namespace Sys2Proof.Laws

open Sys2Proof.Machine Sys2Proof.Safety

theorem tagOf_eq_iff (w : Word) (t : Tag) : tagOf w = t ↔ tagField w = t.toNat := by
  rw [← BitVec.toNat_inj, toNat_tagOf]

/-- `Classify` answers the word's variant, or the error with its tag when it has none (R105). -/
theorem classifyWord_eq (w : Word) :
    classifyWord w = match variantOf w with
      | some v => .ok v
      | none => .err (tagOf w) := by
  have h1 := tagOf_eq_iff w 1#4
  have h2 := tagOf_eq_iff w 2#4
  have h3 := tagOf_eq_iff w 3#4
  have h4 := tagOf_eq_iff w 4#4
  simp only [BitVec.toNat_ofNat, Nat.reducePow, Nat.reduceMod] at h1 h2 h3 h4
  unfold classifyWord variantOf classOfTag
  simp only [isNaN_eq, h1, h2, h3, h4]
  split
  · generalize tagField w = n
    match n with
    | 0 | 1 | 2 | 3 | 4 => rfl
    | n + 5 => simp
  · rfl

/-- The classifier's question `Classify(w) == Ok(v)` (R107 to R109, R119 to R122). -/
theorem isVariant_iff (v : Variant) (w : Word) : isVariant v w = true ↔ variantOf w = some v := by
  rw [isVariant, classifyWord_eq]
  cases variantOf w <;> simp

theorem variantOf_eq_float_iff (w : Word) : variantOf w = some .float ↔ ¬ NaNPattern w ∨ tagField w = 1 := by
  unfold variantOf
  split
  · rename_i hn
    generalize tagField w = n
    match n with
    | 0 | 1 | 2 | 3 | 4 => simp [hn]
    | n + 5 => simp [hn]
  · simp_all

theorem variantOf_eq_signedInt_iff (w : Word) : variantOf w = some .signedInt ↔ NaNPattern w ∧ tagField w = 2 := by
  unfold variantOf
  split
  · rename_i hn
    generalize tagField w = n
    match n with
    | 0 | 1 | 2 | 3 | 4 => simp [hn]
    | n + 5 => simp
  · simp_all

theorem variantOf_eq_unsignedInt_iff (w : Word) : variantOf w = some .unsignedInt ↔ NaNPattern w ∧ tagField w = 3 := by
  unfold variantOf
  split
  · rename_i hn
    generalize tagField w = n
    match n with
    | 0 | 1 | 2 | 3 | 4 => simp [hn]
    | n + 5 => simp
  · simp_all

theorem variantOf_eq_pointer_iff (w : Word) : variantOf w = some .pointer ↔ NaNPattern w ∧ tagField w = 4 := by
  unfold variantOf
  split
  · rename_i hn
    generalize tagField w = n
    match n with
    | 0 | 1 | 2 | 3 | 4 => simp [hn]
    | n + 5 => simp
  · simp_all

theorem variantOf_eq_none_iff (w : Word) :
    variantOf w = none ↔ NaNPattern w ∧ (tagField w = 0 ∨ 5 ≤ tagField w) := by
  unfold variantOf
  split
  · rename_i hn
    generalize tagField w = n
    match n with
    | 0 | 1 | 2 | 3 | 4 => simp [hn]
    | n + 5 => simp [hn]
  · simp_all

/-- A fallible extraction yields the value when the variant matches, absence otherwise (R119 to R122). -/
theorem valueIf_eq (v : Variant) (w value : Word) :
    valueIf v w value = if variantOf w = some v then resultPresent value else resultAbsent := by
  unfold valueIf
  simp only [isVariant_iff]

end Sys2Proof.Laws
end

