-- ==== Sys2Proof/Laws/Counting.lean ====
section
/-! SUPPORT. Counting words (R64) without ever computing over the range: a test and its negation, and the words with an
exponent of ones, one tag and a payload from a bound on. -/

namespace Sys2Proof.Laws

open Sys2Proof.Machine Sys2Proof.Safety

theorem countWords_congr {c d : Word → Bool} (h : ∀ w, c w = d w) : countWords c = countWords d := by
  rw [funext h]

/-- A test and its negation share out the 2^64 words. -/
theorem countWords_add_not (c : Word → Bool) : countWords c + countWords (fun w => !c w) = 2 ^ 64 := by
  have h := Finset.card_filter_add_card_filter_not (s := Finset.range (2 ^ 64))
    (fun n => c (BitVec.ofNat 64 n) = true)
  rw [Finset.card_range] at h
  refine Eq.trans ?_ h
  unfold countWords
  refine congrArg₂ (· + ·) rfl (congrArg Finset.card (Finset.filter_congr ?_))
  intro n _
  simp

/-- The words with an exponent of ones, the tag `t` and a payload of at least `lo` are two times `2^48 - lo`. -/
theorem countWords_tagged (t lo : Nat) (ht : t < 16) (c : Word → Bool)
    (hc : ∀ w : Word, c w = true ↔ exponentField w = 0x7FF ∧ tagField w = t ∧ lo ≤ payloadField w) :
    countWords c = 2 * (2 ^ 48 - lo) := by
  have himage : ((Finset.range (2 ^ 64)).filter fun n => c (BitVec.ofNat 64 n) = true) =
      (Finset.range 2 ×ˢ Finset.Ico lo (2 ^ 48)).image
        (fun x => x.1 * 2 ^ 63 + 0x7FF * 2 ^ 52 + t * 2 ^ 48 + x.2) := by
    ext n
    rw [Finset.mem_filter, Finset.mem_image, Finset.mem_range]
    constructor
    · rintro ⟨hn, h⟩
      rw [hc] at h
      unfold exponentField tagField payloadField at h
      rw [BitVec.toNat_ofNat, Nat.mod_eq_of_lt hn] at h
      refine ⟨(n / 2 ^ 63, n % 2 ^ 48), ?_, ?_⟩
      · rw [Finset.mem_product, Finset.mem_range, Finset.mem_Ico]
        refine ⟨?_, h.2.2, ?_⟩
        · show n / 2 ^ 63 < 2
          omega
        · show n % 2 ^ 48 < 2 ^ 48
          omega
      · show n / 2 ^ 63 * 2 ^ 63 + 0x7FF * 2 ^ 52 + t * 2 ^ 48 + n % 2 ^ 48 = n
        omega
    · rintro ⟨⟨s, p⟩, hm, rfl⟩
      rw [Finset.mem_product, Finset.mem_range, Finset.mem_Ico] at hm
      obtain ⟨h1, h2, h3⟩ := hm
      change s < 2 at h1
      change lo ≤ p at h2
      change p < 2 ^ 48 at h3
      have hn : s * 2 ^ 63 + 0x7FF * 2 ^ 52 + t * 2 ^ 48 + p < 2 ^ 64 := by omega
      refine ⟨hn, ?_⟩
      rw [hc]
      unfold exponentField tagField payloadField
      rw [BitVec.toNat_ofNat, Nat.mod_eq_of_lt hn]
      refine ⟨?_, ?_, ?_⟩ <;> omega
  rw [countWords, himage, Finset.card_image_of_injOn, Finset.card_product, Finset.card_range, Nat.card_Ico]
  rintro ⟨s, p⟩ h ⟨s', p'⟩ h' he
  rw [Finset.mem_coe, Finset.mem_product, Finset.mem_range, Finset.mem_Ico] at h h'
  simp only at h h' he
  rw [Prod.mk.injEq]
  omega

end Sys2Proof.Laws
end

