-- ==== Sys2Proof/Laws/Equality.lean ====
section
/-! SUPPORT. The field comparisons of `eq`, each as the comparison of values it stands for. -/

namespace Sys2Proof.Laws

open Sys2Proof.Machine Sys2Proof.Safety

theorem isFloatZero_iff (w : Word) : isFloatZero w = true ↔ w.toNat % 2 ^ 63 = 0 := by
  have h : (w &&& ~~~signMask).toNat = w.toNat % 2 ^ 63 := Nat.and_two_pow_sub_one_eq_mod w.toNat 63
  rw [isFloatZero, beq_iff_eq, ← BitVec.toNat_inj, h]
  rfl

/-- `FloatEq` on bit patterns is IEEE equality of the doubles (R131). -/
theorem floatEq_iff (x z : Word) : floatEq x z = true ↔ FloatsEqual x z := by
  unfold floatEq FloatsEqual
  rw [← isFloatZero_iff, ← isFloatZero_iff, ← isNaN_eq, ← isNaN_eq]
  cases isNaN x <;> cases isNaN z <;> cases isFloatZero x <;> cases isFloatZero z <;> simp

/-- The `SignedInt` line of R130 compares the decoded integers. -/
theorem signedFieldsEq_iff (x z : Word) : signedFieldsEq x z = true ↔ signedNumber x = signedNumber z := by
  have z0 : (0#48).toNat = 0 := rfl
  unfold signedFieldsEq signedNumber
  rw [← toNat_signOf, ← toNat_signOf, ← toNat_payloadOf, ← toNat_payloadOf]
  simp only [Bool.and_eq_true, beq_iff_eq, Bool.or_eq_true, ← BitVec.toNat_inj, z0]
  cases signOf x <;> cases signOf z <;> simp <;> omega

/-- The `UnsignedInt` and `Pointer` lines of R130 compare the decoded numbers. -/
theorem payloadFieldsEq_iff (x z : Word) : payloadFieldsEq x z = true ↔ payloadField x = payloadField z := by
  rw [payloadFieldsEq, beq_iff_eq, ← BitVec.toNat_inj, toNat_payloadOf, toNat_payloadOf]

end Sys2Proof.Laws
end

