-- ==== Sys2Proof/Laws/State.lean ====
section
/-! SUPPORT. One lemma per field per update of State: driving the outputs, presenting inputs, placing a code. -/

namespace Sys2Proof.Machine

open Sys2Proof

@[simp] theorem State.drive_op (s : State) (r : Result) : (s.drive r).op = s.op := rfl
@[simp] theorem State.drive_a (s : State) (r : Result) : (s.drive r).a = s.a := rfl
@[simp] theorem State.drive_b (s : State) (r : Result) : (s.drive r).b = s.b := rfl
@[simp] theorem State.drive_y (s : State) (r : Result) : (s.drive r).y = r.y := rfl
@[simp] theorem State.drive_ok (s : State) (r : Result) : (s.drive r).ok = r.ok := rfl
@[simp] theorem State.drive_ill (s : State) (r : Result) : (s.drive r).ill = r.ill := rfl

@[simp] theorem State.drive_drive (s : State) (r q : Result) : (s.drive r).drive q = s.drive q := rfl

@[simp] theorem State.present_op (s : State) (op : OpCode) (a b : Word) : (s.present op a b).op = op := rfl
@[simp] theorem State.present_a (s : State) (op : OpCode) (a b : Word) : (s.present op a b).a = a := rfl
@[simp] theorem State.present_b (s : State) (op : OpCode) (a b : Word) : (s.present op a b).b = b := rfl
@[simp] theorem State.present_y (s : State) (op : OpCode) (a b : Word) : (s.present op a b).y = s.y := rfl
@[simp] theorem State.present_ok (s : State) (op : OpCode) (a b : Word) : (s.present op a b).ok = s.ok := rfl
@[simp] theorem State.present_ill (s : State) (op : OpCode) (a b : Word) : (s.present op a b).ill = s.ill := rfl

@[simp] theorem State.withFetchWord_op (s : State) (nbits w : Nat) :
    (s.withFetchWord nbits w).op = opCodeOfTableWord nbits w := rfl
@[simp] theorem State.withFetchWord_a (s : State) (nbits w : Nat) : (s.withFetchWord nbits w).a = s.a := rfl
@[simp] theorem State.withFetchWord_b (s : State) (nbits w : Nat) : (s.withFetchWord nbits w).b = s.b := rfl
@[simp] theorem State.withFetchWord_y (s : State) (nbits w : Nat) : (s.withFetchWord nbits w).y = s.y := rfl
@[simp] theorem State.withFetchWord_ok (s : State) (nbits w : Nat) : (s.withFetchWord nbits w).ok = s.ok := rfl
@[simp] theorem State.withFetchWord_ill (s : State) (nbits w : Nat) : (s.withFetchWord nbits w).ill = s.ill := rfl

@[simp] theorem resultPresent_y (x : Word) : (resultPresent x).y = x := rfl
@[simp] theorem resultPresent_ok (x : Word) : (resultPresent x).ok = true := rfl
@[simp] theorem resultPresent_ill (x : Word) : (resultPresent x).ill = false := rfl
@[simp] theorem resultAbsent_y : resultAbsent.y = 0#64 := rfl
@[simp] theorem resultAbsent_ok : resultAbsent.ok = false := rfl
@[simp] theorem resultAbsent_ill : resultAbsent.ill = false := rfl
@[simp] theorem resultReserved_y : resultReserved.y = 0#64 := rfl
@[simp] theorem resultReserved_ok : resultReserved.ok = false := rfl
@[simp] theorem resultReserved_ill : resultReserved.ill = true := rfl
@[simp] theorem resultBool_ok (c : Bool) : (resultBool c).ok = true := rfl
@[simp] theorem resultBool_ill (c : Bool) : (resultBool c).ill = false := rfl

/-- A Boolean result is the word 1 or the word 0 (R106). -/
theorem resultBool_y (c : Bool) : (resultBool c).y = if c = true then 1#64 else 0#64 := by
  cases c <;> rfl

end Sys2Proof.Machine
end

