-- ==== Sys2Proof/Laws/Exec.lean ====
section
/-! SUPPORT. What an operation, and a step, can do, said once: drive the outputs with a result that is a function of the
operands. -/

namespace Sys2Proof.Laws

open Sys2Proof Sys2Proof.Machine

/-- The result of each operation as a function of its operands (R28: "only the functions are normative"). -/
def resultOf (i : Instr) (a b : Word) : Result :=
  match i with
  | .nanTemplate => resultPresent template
  | .fromFloat => resultPresent (boxFloat a)
  | .fromSigned => resultPresent (boxSigned a)
  | .fromUnsigned => resultPresent (boxUnsigned a)
  | .fromPointer => resultPresent (boxPointer a)
  | .classify => resultClass (classifyWord a)
  | .isFloat => resultBool (!isNaN a)
  | .isSigned => resultBool (isVariant .signedInt a)
  | .isUnsigned => resultBool (isVariant .unsignedInt a)
  | .isPointer => resultBool (isVariant .pointer a)
  | .eq => resultBool (boxedEq a b)
  | .asFloat => resultPresent (floatValue a)
  | .asSigned => resultPresent (signedValue a)
  | .asUnsigned => resultPresent (unsignedValue a)
  | .asPointer => resultPresent (pointerValue a)
  | .getFloat => valueIf .float a (floatValue a)
  | .getSigned => valueIf .signedInt a (signedValue a)
  | .getUnsigned => valueIf .unsignedInt a (unsignedValue a)
  | .getPointer => valueIf .pointer a (pointerValue a)

/-- Every operation goes on, and does nothing but drive the outputs. -/
theorem exec_eq_drive (i : Instr) (s : State) : exec i s = .next (s.drive (resultOf i s.a s.b)) := by
  cases i <;> rfl

/-- If an operation answers a next state, that state is the old one with the result on its outputs. -/
theorem exec_next {i : Instr} {s t : State} (h : exec i s = .next t) : t = s.drive (resultOf i s.a s.b) := by
  rw [exec_eq_drive] at h
  exact (Host.Outcome.next.inj h).symm

/-- The result of a code, defined or reserved. -/
def resultOfCode (op : OpCode) (a b : Word) : Result :=
  match decode op with
  | .instr i => resultOf i a b
  | .reserved _ => resultReserved

/-- Every step goes on, and does nothing but drive the outputs with the code's result. -/
theorem step_eq_drive (s : State) : step s = .next (s.drive (resultOfCode s.op s.a s.b)) := by
  unfold step resultOfCode
  cases decode s.op with
  | instr i => exact exec_eq_drive i s
  | reserved op => rfl

/-- What a step that answers a next state did: it ran the decoded operation, or reported a reserved code. -/
theorem step_next {s t : State} (h : step s = .next t) :
    (∃ i, decode s.op = .instr i ∧ t = s.drive (resultOf i s.a s.b)) ∨
      ((∃ op, decode s.op = .reserved op) ∧ t = s.drive resultReserved) := by
  rw [step_eq_drive] at h
  have ht := (Host.Outcome.next.inj h).symm
  unfold resultOfCode at ht
  cases hd : decode s.op with
  | instr i => exact .inl ⟨i, rfl, by simpa only [hd] using ht⟩
  | reserved op => exact .inr ⟨⟨op, rfl⟩, by simpa only [hd] using ht⟩

/-- The result of an operation's own code. -/
theorem resultOfCode_encode (i : Instr) (a b : Word) : resultOfCode (encode i) a b = resultOf i a b := by
  cases i <;> rfl

/-- An evaluation in the sense of R11 says exactly what the result of its code is. -/
theorem evaluates_iff (op : OpCode) (a b y : Word) (ok ill : Bool) :
    Safety.Evaluates op a b y ok ill ↔ resultOfCode op a b = ⟨y, ok, ill⟩ := by
  constructor
  · intro h
    have h' := h State.reset
    rw [step_eq_drive] at h'
    have := Host.Outcome.next.inj h'
    cases hr : resultOfCode op a b
    simp_all [State.drive, State.present]
  · intro h s
    rw [step_eq_drive]
    simp [State.drive, State.present, h]

end Sys2Proof.Laws
end

