-- ==== Sys2Proof/Laws/PerInstr.lean ====
section
/-! SUPPORT. Families of statements about the operations as syntax, one lemma per constructor. `OpMap`: the encoder's
code is well-formed by R65's fields, decodes to the operation, and is not the code of another row of R66. -/

namespace Sys2Proof.Laws.OpMap

open Sys2Proof

/-- The code of an operation passes the field check, and exactly one row of the operation map holds it. -/
def Statement (i : Instr) : Prop :=
  OpCode.wellFormed (encode i) = true ∧ opTable.filter (fun r => r.code == encode i) = [⟨encode i, i⟩]

theorem nanTemplate : Statement .nanTemplate := by unfold Statement; decide

theorem fromFloat : Statement .fromFloat := by unfold Statement; decide

theorem fromSigned : Statement .fromSigned := by unfold Statement; decide

theorem fromUnsigned : Statement .fromUnsigned := by unfold Statement; decide

theorem fromPointer : Statement .fromPointer := by unfold Statement; decide

theorem classify : Statement .classify := by unfold Statement; decide

theorem isFloat : Statement .isFloat := by unfold Statement; decide

theorem isSigned : Statement .isSigned := by unfold Statement; decide

theorem isUnsigned : Statement .isUnsigned := by unfold Statement; decide

theorem isPointer : Statement .isPointer := by unfold Statement; decide

theorem eq : Statement .eq := by unfold Statement; decide

theorem asFloat : Statement .asFloat := by unfold Statement; decide

theorem asSigned : Statement .asSigned := by unfold Statement; decide

theorem asUnsigned : Statement .asUnsigned := by unfold Statement; decide

theorem asPointer : Statement .asPointer := by unfold Statement; decide

theorem getFloat : Statement .getFloat := by unfold Statement; decide

theorem getSigned : Statement .getSigned := by unfold Statement; decide

theorem getUnsigned : Statement .getUnsigned := by unfold Statement; decide

theorem getPointer : Statement .getPointer := by unfold Statement; decide

end Sys2Proof.Laws.OpMap
end

