-- ==== Sys2Proof/Laws/Values.lean ====
section
/-! SUPPORT. The encoder's words and the extractor's values, each in closed form. -/

namespace Sys2Proof.Laws

open Sys2Proof.Machine Sys2Proof.Safety

/-- The box of an `i64` is `{v[63], 0x7FF, 2, |v| mod 2^48}` (R96). -/
theorem boxSigned_eq (v : Word) : boxSigned v = boxOf (signOf v) 2#4 (payloadOf (magnitude64 v)) := by
  apply word_ext <;> simp [boxSigned, tagSignedInt]

/-- The box of a `u64` is `{0, 0x7FF, 3, v[47:0]}` (R97). -/
theorem boxUnsigned_eq (v : Word) : boxUnsigned v = boxOf false 3#4 (payloadOf v) := by
  apply word_ext <;> simp [boxUnsigned, tagUnsignedInt]

/-- The box of an address is `{0, 0x7FF, 4, addr[47:0]}` (R98). -/
theorem boxPointer_eq (v : Word) : boxPointer v = boxOf false 4#4 (payloadOf v) := by
  apply word_ext <;> simp [boxPointer, tagPointer]

/-- R96's closed form: the 48-bit negation suffices. -/
theorem payloadOf_magnitude64 (v : Word) :
    payloadOf (magnitude64 v) = if signOf v then -(payloadOf v) else payloadOf v := by
  have := v.isLt
  apply BitVec.eq_of_toNat_eq
  unfold magnitude64
  split
  · rw [toNat_payloadOf, payloadField, neg64_eq, BitVec.toNat_neg, BitVec.toNat_neg, toNat_payloadOf, payloadField]
    omega
  · rfl

theorem toNat_zextPayload (p : Payload) : (zextPayload p).toNat = p.toNat := by
  have := p.isLt
  rw [zextPayload, BitVec.toNat_setWidth]
  omega

/-- The extracted integer is `(-1)^S * P`, for every word (R116, R124). -/
theorem toInt_signedValue (w : Word) : (signedValue w).toInt = signedNumber w := by
  have h := signOf_iff w
  have hl : payloadField w < 2 ^ 48 := Nat.mod_lt _ (by decide)
  have hz : (zextPayload (payloadOf w)).toNat = payloadField w := by rw [toNat_zextPayload, toNat_payloadOf]
  unfold signedValue signedNumber
  simp only [h, neg64_eq]
  split <;> simp [BitVec.toInt_eq_toNat_cond, hz, BitVec.toNat_neg] <;> omega

/-- The extracted unsigned value is the payload (R117). -/
theorem toNat_unsignedValue (w : Word) : (unsignedValue w).toNat = payloadField w := by
  rw [unsignedValue, toNat_zextPayload, toNat_payloadOf]

/-- The extracted address is the payload (R118). -/
theorem toNat_pointerValue (w : Word) : (pointerValue w).toNat = payloadField w := by
  rw [pointerValue, toNat_zextPayload, toNat_payloadOf]

end Sys2Proof.Laws
end

