-- ==== Sys2Proof/Tests/Slice0.lean ====
section
/-! SUPPORT. The model's own tests. Expected results come from spec/95_test_vectors.md and the operation map R66; each
test is one decoding or one step. -/

namespace Sys2Proof.Tests

open Sys2Proof.Machine Sys2Proof.Safety Sys2Proof.Laws

/-! Decoding: the code of every row of R66, written out bit by bit, and the thirteen codes of R67. -/

theorem test_decode_nan_template : decode 0b00000#5 = .instr .nanTemplate := by decide

theorem test_decode_from_float : decode 0b00001#5 = .instr .fromFloat := by decide

theorem test_decode_from_signed : decode 0b00010#5 = .instr .fromSigned := by decide

theorem test_decode_from_unsigned : decode 0b00011#5 = .instr .fromUnsigned := by decide

theorem test_decode_from_pointer : decode 0b00100#5 = .instr .fromPointer := by decide

theorem test_decode_classify : decode 0b01000#5 = .instr .classify := by decide

theorem test_decode_is_float : decode 0b01001#5 = .instr .isFloat := by decide

theorem test_decode_is_signed : decode 0b01010#5 = .instr .isSigned := by decide

theorem test_decode_is_unsigned : decode 0b01011#5 = .instr .isUnsigned := by decide

theorem test_decode_is_pointer : decode 0b01100#5 = .instr .isPointer := by decide

theorem test_decode_eq : decode 0b10000#5 = .instr .eq := by decide

theorem test_decode_as_float : decode 0b10001#5 = .instr .asFloat := by decide

theorem test_decode_as_signed : decode 0b10010#5 = .instr .asSigned := by decide

theorem test_decode_as_unsigned : decode 0b10011#5 = .instr .asUnsigned := by decide

theorem test_decode_as_pointer : decode 0b10100#5 = .instr .asPointer := by decide

theorem test_decode_get_float : decode 0b11001#5 = .instr .getFloat := by decide

theorem test_decode_get_signed : decode 0b11010#5 = .instr .getSigned := by decide

theorem test_decode_get_unsigned : decode 0b11011#5 = .instr .getUnsigned := by decide

theorem test_decode_get_pointer : decode 0b11100#5 = .instr .getPointer := by decide

theorem test_decode_reserved : ∀ op ∈ reservedCodes, decode op = .reserved op := by decide

/-! The checks of WellFormed: each refuses an ill-formed term. -/

/-- `var` is 5, no tag number (R67: 0x05). -/
theorem test_wellFormed_refuses_var_five : OpCode.wellFormed 0x05#5 = false := by decide

/-- Group 3 has no variant-free operation (R67: 0x18). -/
theorem test_wellFormed_refuses_group_three_free : OpCode.wellFormed 0x18#5 = false := by decide

/-- The field check refuses exactly the codes that R67 lists. -/
theorem test_wellFormed_is_not_reserved : ∀ op : OpCode, OpCode.wellFormed op = !(reservedCodes.contains op) := by
  decide

/-- `eq` with one operand (R71). -/
theorem test_wellFormed_refuses_eq_with_one_operand : Evaluation.wellFormed ⟨.eq, [0x7#64]⟩ = false := by decide

/-- `from_signed` with two operands (R71). -/
theorem test_wellFormed_refuses_from_signed_with_two : Evaluation.wellFormed ⟨.fromSigned, [0x7#64, 0x8#64]⟩ = false := by
  decide

/-! The primitives: spec/95_test_vectors.md part 2.1. -/

theorem test_primitive_IsNaN :
    isNaN 0x7FF0_0000_0000_0000#64 = false ∧ isNaN 0xFFF0_0000_0000_0000#64 = false ∧
      isNaN 0x7FF0_0000_0000_0001#64 = true ∧ isNaN 0x7FF1_0000_0000_0000#64 = true ∧
      isNaN 0x7FEF_FFFF_FFFF_FFFF#64 = false ∧ isNaN 0x000F_FFFF_FFFF_FFFF#64 = false ∧
      isNaN 0xFFFF_FFFF_FFFF_FFFF#64 = true := by decide

theorem test_primitive_reads :
    tagOf 0x7FF4_0000_0000_1234#64 = 4#4 ∧ tagOf 0x3FF8_0000_0000_0000#64 = 8#4 ∧
      payloadOf 0xFFF2_1234_5678_9ABC#64 = 0x1234_5678_9ABC#48 ∧ signOf 0xFFF2_1234_5678_9ABC#64 = true := by decide

theorem test_primitive_writes :
    setTag 0x7FFF_FFFF_FFFF_FFFF#64 4#4 = 0x7FF4_FFFF_FFFF_FFFF#64 ∧
      setPayload 0x7FF3_FFFF_FFFF_FFFF#64 1#48 = 0x7FF3_0000_0000_0001#64 ∧
      setSign 0x7FF2_0000_0000_0001#64 true = 0xFFF2_0000_0000_0001#64 ∧
      setSign 0xFFF2_0000_0000_0001#64 false = 0x7FF2_0000_0000_0001#64 ∧
      setPayload (setTag 0x7FF8_0000_0000_0000#64 3#4) 5#48 = 0x7FF3_0000_0000_0005#64 := by decide

theorem test_template : template = 0x7FF0_0000_0000_0000#64 := by decide

/-! One step on presented inputs: spec/95_test_vectors.md parts 2.1 to 2.6. -/

/-- The outputs after one step with the given inputs presented to the reset state. -/
def outputs (op : OpCode) (a b : Word) : Option (Word × Bool × Bool) :=
  match step (State.reset.present op a b) with
  | .next t => some (t.y, t.ok, t.ill)
  | .fault _ => none
  | .refused _ => none

theorem test_nan_template_ignores_operands :
    outputs 0x00#5 0xFFFF_FFFF_FFFF_FFFF#64 0x7FF2_0000_0000_0007#64 = some (0x7FF0_0000_0000_0000#64, true, false) := by decide

theorem test_from_float_collides_with_pointer :
    outputs 0x01#5 0x7FF4_0000_0000_1234#64 0x0000_0000_0000_0000#64 = some (0x7FF4_0000_0000_1234#64, true, false) := by decide

theorem test_from_signed_most_negative :
    outputs 0x02#5 0x8000_0000_0000_0000#64 0x0000_0000_0000_0000#64 = some (0xFFF2_0000_0000_0000#64, true, false) := by decide

theorem test_from_signed_negative_beyond_range :
    outputs 0x02#5 0xFFFE_FFFF_FFFF_FFFB#64 0x0000_0000_0000_0000#64 = some (0xFFF2_0000_0000_0005#64, true, false) := by decide

theorem test_from_unsigned_bit_63_dropped :
    outputs 0x03#5 0x8000_0000_0000_0000#64 0x0000_0000_0000_0000#64 = some (0x7FF3_0000_0000_0000#64, true, false) := by decide

theorem test_from_unsigned_all_ones :
    outputs 0x03#5 0xFFFF_FFFF_FFFF_FFFF#64 0x0000_0000_0000_0000#64 = some (0x7FF3_FFFF_FFFF_FFFF#64, true, false) := by decide

theorem test_from_pointer_upper_bits_lost :
    outputs 0x04#5 0xFFFF_8000_0000_1000#64 0x0000_0000_0000_0000#64 = some (0x7FF4_8000_0000_1000#64, true, false) := by decide

theorem test_classify_infinity_is_float :
    outputs 0x08#5 0xFFF0_0000_0000_0000#64 0x0000_0000_0000_0000#64 = some (0x0000_0000_0000_0001#64, true, false) := by decide

theorem test_classify_tag_zero_error :
    outputs 0x08#5 0x7FF0_0000_0000_0001#64 0x0000_0000_0000_0000#64 = some (0x0000_0000_0000_0000#64, false, false) := by decide

theorem test_is_float_tag_one_is_not :
    outputs 0x09#5 0x7FF1_0000_0000_0000#64 0x0000_0000_0000_0000#64 = some (0x0000_0000_0000_0000#64, true, false) := by decide

theorem test_is_float_largest_finite :
    outputs 0x09#5 0x7FEF_FFFF_FFFF_FFFF#64 0x0000_0000_0000_0000#64 = some (0x0000_0000_0000_0001#64, true, false) := by decide

theorem test_is_signed_minus_zero :
    outputs 0x0A#5 0xFFF2_0000_0000_0000#64 0x0000_0000_0000_0000#64 = some (0x0000_0000_0000_0001#64, true, false) := by decide

theorem test_is_signed_exponent_one_short :
    outputs 0x0A#5 0x7FE2_0000_0000_0001#64 0x0000_0000_0000_0000#64 = some (0x0000_0000_0000_0000#64, true, false) := by decide

theorem test_is_unsigned_sign_set :
    outputs 0x0B#5 0xFFF3_0000_0000_0005#64 0x0000_0000_0000_0000#64 = some (0x0000_0000_0000_0001#64, true, false) := by decide

theorem test_is_unsigned_tag_eleven :
    outputs 0x0B#5 0x7FFB_0000_0000_0000#64 0x0000_0000_0000_0000#64 = some (0x0000_0000_0000_0000#64, true, false) := by decide

theorem test_is_pointer_pointer :
    outputs 0x0C#5 0x7FF4_0000_0000_1234#64 0x0000_0000_0000_0000#64 = some (0x0000_0000_0000_0001#64, true, false) := by decide

theorem test_is_pointer_unsigned_is_not :
    outputs 0x0C#5 0x7FF3_0000_0000_1234#64 0x0000_0000_0000_0000#64 = some (0x0000_0000_0000_0000#64, true, false) := by decide

theorem test_eq_signed_zeros :
    outputs 0x10#5 0x7FF2_0000_0000_0000#64 0xFFF2_0000_0000_0000#64 = some (0x0000_0000_0000_0001#64, true, false) := by decide

theorem test_eq_unrecognized_with_itself :
    outputs 0x10#5 0x7FF8_0000_0000_0000#64 0x7FF8_0000_0000_0000#64 = some (0x0000_0000_0000_0000#64, true, false) := by decide

theorem test_as_float_boxed_integer :
    outputs 0x11#5 0x7FF2_0000_0000_0007#64 0x0000_0000_0000_0000#64 = some (0x7FF2_0000_0000_0007#64, true, false) := by decide

theorem test_as_signed_pointer_with_sign :
    outputs 0x12#5 0xFFF4_0000_0000_1234#64 0x0000_0000_0000_0000#64 = some (0xFFFF_FFFF_FFFF_EDCC#64, true, false) := by decide

theorem test_as_signed_minus_zero :
    outputs 0x12#5 0xFFF2_0000_0000_0000#64 0x0000_0000_0000_0000#64 = some (0x0000_0000_0000_0000#64, true, false) := by decide

theorem test_as_unsigned_sign_ignored :
    outputs 0x13#5 0xFFF3_0000_0000_0005#64 0x0000_0000_0000_0000#64 = some (0x0000_0000_0000_0005#64, true, false) := by decide

theorem test_as_pointer_bit_47_not_extended :
    outputs 0x14#5 0x7FF4_8000_0000_1000#64 0x0000_0000_0000_0000#64 = some (0x0000_8000_0000_1000#64, true, false) := by decide

theorem test_get_float_tag_one_present :
    outputs 0x19#5 0x7FF1_0000_0000_0000#64 0x0000_0000_0000_0000#64 = some (0x7FF1_0000_0000_0000#64, true, false) := by decide

theorem test_get_float_default_nan_absent :
    outputs 0x19#5 0x7FF8_0000_0000_0000#64 0x0000_0000_0000_0000#64 = some (0x0000_0000_0000_0000#64, false, false) := by decide

theorem test_get_signed_negative :
    outputs 0x1A#5 0xFFF2_1234_5678_9ABC#64 0x0000_0000_0000_0000#64 = some (0xFFFF_EDCB_A987_6544#64, true, false) := by decide

theorem test_get_signed_pointer_absent :
    outputs 0x1A#5 0x7FF4_0000_0000_1234#64 0x0000_0000_0000_0000#64 = some (0x0000_0000_0000_0000#64, false, false) := by decide

theorem test_get_unsigned_present :
    outputs 0x1B#5 0x7FF3_DEAD_BEEF_CAFE#64 0x0000_0000_0000_0000#64 = some (0x0000_DEAD_BEEF_CAFE#64, true, false) := by decide

theorem test_get_unsigned_signed_absent :
    outputs 0x1B#5 0x7FF2_FFFF_FFFF_FFFF#64 0x0000_0000_0000_0000#64 = some (0x0000_0000_0000_0000#64, false, false) := by decide

theorem test_get_pointer_null_present :
    outputs 0x1C#5 0x7FF4_0000_0000_0000#64 0x0000_0000_0000_0000#64 = some (0x0000_0000_0000_0000#64, true, false) := by decide

theorem test_get_pointer_double_absent :
    outputs 0x1C#5 0x3FF0_0000_0000_0000#64 0x0000_0000_0000_0000#64 = some (0x0000_0000_0000_0000#64, false, false) := by decide

theorem test_reserved_beside_get_float :
    outputs 0x18#5 0x7FF4_0000_0000_1234#64 0x0#64 = some (0x0#64, false, true) := by decide

theorem test_reserved_last :
    outputs 0x1F#5 0x7FF2_0000_0000_0007#64 0x7FF3_0000_0000_0007#64 = some (0x0#64, false, true) := by decide

/-- A written evaluation: `from_signed -42` (R71, R96's example). -/
theorem test_presentEvaluation :
    step (State.reset.presentEvaluation ⟨.fromSigned, [0xFFFF_FFFF_FFFF_FFD6#64]⟩) =
      .next ⟨0x02#5, 0xFFFF_FFFF_FFFF_FFD6#64, 0x0#64, 0xFFF2_0000_0000_002A#64, true, false⟩ := by rfl

/-! Witnesses: for each statement with hypotheses, inputs that meet them. -/

/-- A state whose code decodes. -/
theorem test_witness_StepRunsDecodedOperation :
    decode (State.reset.present 0x02#5 0x7#64 0x0#64).op = .instr .fromSigned := by decide

/-- Reserved codes at both ends, and neighbours that are not reserved. -/
theorem test_witness_ReservedCodesReportIllegal_codes :
    0x05#5 ∈ reservedCodes ∧ 0x18#5 ∈ reservedCodes ∧ 0x1F#5 ∈ reservedCodes ∧ 0x04#5 ∉ reservedCodes ∧
      0x19#5 ∉ reservedCodes ∧ 0x1C#5 ∉ reservedCodes := by decide

/-- A step that sets `ill`, and one that does not. -/
theorem test_witness_ReservedCodesReportIllegal_step :
    (∃ t, step (State.reset.present 0x1F#5 0x7#64 0x0#64) = .next t ∧ t.ill = true) ∧
      (∃ t, step State.reset = .next t ∧ t.ill = false) := ⟨⟨_, rfl, rfl⟩, ⟨_, rfl, rfl⟩⟩

/-- The narrowest and a byte-wide word with the last code, and a word the decoder rejects. -/
theorem test_witness_DecodeAndEncodeAgree :
    5 ≤ 5 ∧ decodeTableWord 5 0x1C = some .getPointer ∧ decodeTableWord 8 0x1C = some .getPointer ∧
      decodeTableWord 8 0x1D = none ∧ 0x1C % 32 = (encode .getPointer).toNat := by decide

/-- A table word that the decoder reads, and its run after reset. -/
theorem test_witness_PlacedWordRunsItsOperation :
    decodeTableWord 8 0x02 = some .fromSigned ∧
      step (State.reset.withFetchWord 8 0x02) = .next { State.reset with op := 0x02#5, y := 0x7FF2_0000_0000_0000#64 } := ⟨by decide, rfl⟩

/-- One well-formed evaluation for each number of operands. -/
theorem test_witness_WrittenEvaluationDeterminesItsResult :
    Evaluation.wellFormed ⟨.nanTemplate, []⟩ = true ∧ Evaluation.wellFormed ⟨.asFloat, [0x7#64]⟩ = true ∧
      Evaluation.wellFormed ⟨.eq, [0x7#64, 0x8#64]⟩ = true ∧ ([0x7#64, 0x8#64] : List Word)[0]? = some 0x7#64 ∧
      ([0x7#64, 0x8#64] : List Word)[1]? = some 0x8#64 := by decide

/-- An operation that answers a next state. -/
theorem test_witness_OperationsKeepTheInputs :
    ∃ t, exec .eq State.reset = .next t := ⟨_, rfl⟩

/-- Two different states with the same inputs. -/
theorem test_witness_OutputsAreAFunctionOfTheInputs :
    State.reset ≠ { State.reset with y := 0x7#64 } ∧ State.reset.op = ({ State.reset with y := 0x7#64 } : State).op ∧
      State.reset.a = ({ State.reset with y := 0x7#64 } : State).a ∧
      State.reset.b = ({ State.reset with y := 0x7#64 } : State).b := by decide

/-- A step that answers a next state, from a state it changes. -/
theorem test_witness_RepeatedEvaluationIsUnobservable :
    ∃ t, step (State.reset.present 0x03#5 0x7#64 0x0#64) = .next t ∧
      t ≠ State.reset.present 0x03#5 0x7#64 0x0#64 := ⟨_, rfl, by decide⟩

/-- A step that answers a next state, from a state that is not settled. -/
theorem test_witness_EveryStepSettlesThePorts :
    (∃ t, step (State.reset.present 0x03#5 0x7#64 0x0#64) = .next t) ∧
      ¬ Settled (State.reset.present 0x03#5 0x7#64 0x0#64) := by
  refine ⟨⟨_, rfl⟩, ?_⟩
  rintro ⟨⟨h, _⟩, _⟩
  exact absurd h (by decide)

/-- The last operation of group 0, and the first of group 1, which is outside it. -/
theorem test_witness_ConstructionNeverFails :
    Instr.group .fromPointer = 0#2 ∧ Instr.group .classify ≠ 0#2 := by decide

/-- Each clause at its boundary: an infinity, the smallest NaN pattern, and the tags 1, 4, 5. -/
theorem test_witness_ClassifyResult :
    NaNPattern 0x7FF0_0000_0000_0000#64 = false ∧ NaNPattern 0x7FF0_0000_0000_0001#64 = true ∧
      (NaNPattern 0x7FF1_0000_0000_0000#64 = true ∧ tagField 0x7FF1_0000_0000_0000#64 = 1) ∧
      (NaNPattern 0x7FF4_0000_0000_0000#64 = true ∧ tagField 0x7FF4_0000_0000_0000#64 = 4) ∧
      (NaNPattern 0x7FF5_0000_0000_0000#64 = true ∧ tagField 0x7FF5_0000_0000_0000#64 = 5) := by decide

/-- Sign set with the smallest and with the largest magnitude that is not zero. -/
theorem test_witness_AsSignedResult :
    (signField 0xFFF2_0000_0000_0001#64 = 1 ∧ payloadField 0xFFF2_0000_0000_0001#64 ≠ 0) ∧
      (signField 0xFFF2_FFFF_FFFF_FFFF#64 = 1 ∧ payloadField 0xFFF2_FFFF_FFFF_FFFF#64 ≠ 0) := by decide

/-- Equal values: the two signed zeros. -/
theorem test_witness_EqualityResult_same :
    SameValue 0x7FF2_0000_0000_0000#64 0xFFF2_0000_0000_0000#64 := ⟨.signedInt 0, .signedInt 0, by decide, by decide, rfl⟩

/-- No value: an unrecognized word and itself. -/
theorem test_witness_EqualityResult_different :
    ¬ SameValue 0x7FF8_0000_0000_0000#64 0x7FF8_0000_0000_0000#64 := by
  rintro ⟨u, _, hu, _⟩
  have hnone : valueOf 0x7FF8_0000_0000_0000#64 = none := by decide
  rw [hnone] at hu
  exact absurd hu (by simp)

/-- Words that are not NaN patterns: an infinity and the largest finite double. -/
theorem test_witness_FloatRoundTrip :
    ¬ NaNPattern 0xFFF0_0000_0000_0000#64 ∧ ¬ NaNPattern 0x7FEF_FFFF_FFFF_FFFF#64 := by decide

/-- The two ends of the exact range. -/
theorem test_witness_SignedRoundTrip :
    (-2 ^ 48 < (0x0000_FFFF_FFFF_FFFF#64).toInt ∧ (0x0000_FFFF_FFFF_FFFF#64).toInt < 2 ^ 48) ∧
      (-2 ^ 48 < (0xFFFF_0000_0000_0001#64).toInt ∧ (0xFFFF_0000_0000_0001#64).toInt < 2 ^ 48) := by decide

/-- The largest exact value. -/
theorem test_witness_UnsignedAndPointerRoundTrip :
    (0x0000_FFFF_FFFF_FFFF#64).toNat < 2 ^ 48 := by decide

/-- Each variant number of the list. -/
theorem test_witness_ConstructedWordsClassifyAsBuilt :
    2#3 ∈ [2#3, 3#3, 4#3] ∧ 3#3 ∈ [2#3, 3#3, 4#3] ∧ 4#3 ∈ [2#3, 3#3, 4#3] := by decide

/-- The disagreement on a tag-1 word, and a word that `is_float` accepts. -/
theorem test_witness_ClassifyAndIsFloatDisagreeOnTagOne :
    Evaluates 0x08#5 0x7FF1_0000_0000_0000#64 0x0000_0000_0000_0000#64 0x0000_0000_0000_0001#64 true false ∧
      Evaluates 0x09#5 0x7FF1_0000_0000_0000#64 0x0000_0000_0000_0000#64 0x0000_0000_0000_0000#64 true false ∧
      Evaluates 0x09#5 0x3FF0_0000_0000_0000#64 0x0000_0000_0000_0000#64 0x0000_0000_0000_0001#64 true false := ⟨(evaluates_iff _ _ _ _ _ _).2 (by decide),
      (evaluates_iff _ _ _ _ _ _).2 (by decide),
      (evaluates_iff _ _ _ _ _ _).2 (by decide)⟩

/-- Both clauses: `classify` naming variant 4, and naming none. -/
theorem test_witness_FallibleExtractionIsGuardedExtraction :
    Evaluates 0x08#5 0x7FF4_0000_0000_1234#64 0x0000_0000_0000_0000#64 0x0000_0000_0000_0004#64 true false ∧
      Evaluates 0x08#5 0x7FF5_0000_0000_0000#64 0x0000_0000_0000_0000#64 0x0000_0000_0000_0005#64 false false := ⟨(evaluates_iff _ _ _ _ _ _).2 (by decide),
      (evaluates_iff _ _ _ _ _ _).2 (by decide)⟩

/-- A listed code on a word and on the word with its sign flipped. -/
theorem test_witness_SignBitDoesNotReachClassification :
    Evaluates 0x1C#5 0x7FF4_0000_0000_1234#64 0x0000_0000_0000_0000#64 0x0000_0000_0000_1234#64 true false ∧
      Evaluates 0x1C#5 0xFFF4_0000_0000_1234#64 0x0000_0000_0000_0000#64 0x0000_0000_0000_1234#64 true false := ⟨(evaluates_iff _ _ _ _ _ _).2 (by decide),
      (evaluates_iff _ _ _ _ _ _).2 (by decide)⟩

/-- Equal words in a chain, two of them different. -/
theorem test_witness_EqualityIsSymmetricAndTransitive :
    Evaluates 0x10#5 0x7FF3_0000_0000_0005#64 0xFFF3_0000_0000_0005#64 0x0000_0000_0000_0001#64 true false ∧
      Evaluates 0x10#5 0xFFF3_0000_0000_0005#64 0x7FF3_0000_0000_0005#64 0x0000_0000_0000_0001#64 true false := ⟨(evaluates_iff _ _ _ _ _ _).2 (by decide),
      (evaluates_iff _ _ _ _ _ _).2 (by decide)⟩

/-- Each of the three ways: the two zeros of a double, the two signed zeros, an address and it with its sign set. -/
theorem test_witness_EqualityIsCoarserOnlyInTheSignBit :
    Evaluates 0x10#5 0x0000_0000_0000_0000#64 0x8000_0000_0000_0000#64 0x0000_0000_0000_0001#64 true false ∧
      Evaluates 0x10#5 0x7FF2_0000_0000_0000#64 0xFFF2_0000_0000_0000#64 0x0000_0000_0000_0001#64 true false ∧
      Evaluates 0x10#5 0x7FF4_0000_0000_1234#64 0xFFF4_0000_0000_1234#64 0x0000_0000_0000_0001#64 true false := ⟨(evaluates_iff _ _ _ _ _ _).2 (by decide),
      (evaluates_iff _ _ _ _ _ _).2 (by decide),
      (evaluates_iff _ _ _ _ _ _).2 (by decide)⟩

/-- Two different operands, each within both ranges, one at an end; and each listed number. -/
theorem test_witness_ConstructedValuesAreEqualOnlyWhenSame :
    0x0#64 ≠ 0x0000_FFFF_FFFF_FFFF#64 ∧ (-2 ^ 48 < (0x0#64).toInt ∧ (0x0#64).toInt < 2 ^ 48) ∧
      (-2 ^ 48 < (0x0000_FFFF_FFFF_FFFF#64).toInt ∧ (0x0000_FFFF_FFFF_FFFF#64).toInt < 2 ^ 48) ∧
      (0x0#64).toNat < 2 ^ 48 ∧ (0x0000_FFFF_FFFF_FFFF#64).toNat < 2 ^ 48 ∧ 3#3 ∈ [3#3, 4#3] ∧ 4#3 ∈ [3#3, 4#3] := by decide

/-- Both codes of the list. -/
theorem test_witness_ReboxingUnsignedAndPointerIsIdempotent :
    0x03#5 ∈ [0x03#5, 0x04#5] ∧ 0x04#5 ∈ [0x03#5, 0x04#5] := by decide

/-- A step for the reserved code, the unrecognized tag and each mismatch, and one that reports nothing. -/
theorem test_witness_OkIsClearOnlyForReportedConditions :
    outputs 0x05#5 0x0#64 0x0#64 = some (0x0#64, false, true) ∧
      outputs 0x08#5 0x7FF5_0000_0000_0000#64 0x0#64 = some (0x5#64, false, false) ∧
      outputs 0x19#5 0x7FF2_0000_0000_0000#64 0x0#64 = some (0x0#64, false, false) ∧
      outputs 0x1A#5 0x7FF3_0000_0000_0000#64 0x0#64 = some (0x0#64, false, false) ∧
      outputs 0x1B#5 0x7FF4_0000_0000_0000#64 0x0#64 = some (0x0#64, false, false) ∧
      outputs 0x1C#5 0x7FF3_0000_0000_0000#64 0x0#64 = some (0x0#64, false, false) ∧
      outputs 0x1C#5 0x7FF4_0000_0000_0000#64 0x0#64 = some (0x0#64, true, false) := by decide

/-- Two different words with the same top twelve bits. -/
theorem test_witness_StampedTemplateIsNaNUnlessAllZero :
    (0x7FF0_0000_0000_0000#64).extractLsb' 52 12 = (0x7FF8_0000_0000_0000#64).extractLsb' 52 12 ∧
      (0x7FF0_0000_0000_0000#64) ≠ 0x7FF8_0000_0000_0000#64 := by decide

/-- The bits beside each field that a write leaves alone, and two different words with the same top twelve bits. -/
theorem test_witness_FieldWritesObeyTheirLaws :
    ((47 < 64 ∧ 47 < 48) ∧ (52 < 64 ∧ 52 ≤ 52) ∧ (48 < 64 ∧ 48 ≤ 48) ∧ (62 < 64 ∧ 62 ≠ 63)) ∧
      (0x7FF0_0000_0000_0000#64).extractLsb' 52 12 = (0x7FFF_FFFF_FFFF_FFFF#64).extractLsb' 52 12 ∧
      (0x7FF0_0000_0000_0000#64) ≠ 0x7FFF_FFFF_FFFF_FFFF#64 := by decide

/-- The ends of the tags that give an error. -/
theorem test_witness_ClassificationCounts :
    5 ≤ (5#4).toNat ∧ 5 ≤ (15#4).toNat := by decide

end Sys2Proof.Tests
end

section
/-! Proofs of the statements about the state (spec/10_state.md). -/

namespace Sys2Proof.Proofs.State

open Sys2Proof Sys2Proof.Machine Sys2Proof.Laws

/-- Settles O9: each step drives its outputs with the result of `(op, a, b)` (`step_eq_drive`), and equal inputs give one
result, whatever the old outputs were (R31). -/
theorem outputsAreAFunctionOfTheInputs : Obligations.OutputsAreAFunctionOfTheInputs := by
  intro s s' hop ha hb
  have same_result : resultOfCode s.op s.a s.b = resultOfCode s'.op s'.a s'.b := by rw [hop, ha, hb]
  refine ⟨_, _, step_eq_drive s, step_eq_drive s', ?_⟩
  simp only [State.drive_y, State.drive_ok, State.drive_ill, same_result, and_self]

end Sys2Proof.Proofs.State
end

section
/-! Proofs of the statements about the encoder (spec/41_encode.md). -/

namespace Sys2Proof.Proofs.Encode

open Sys2Proof Sys2Proof.Machine Sys2Proof.Laws

/-- An operation whose result is present drives that word on `y`, sets `ok`, clears `ill` and keeps the inputs (R11). -/
theorem exec_of_resultOf_eq_present {i : Instr} {s : State} {x : Word} (h : resultOf i s.a s.b = resultPresent x) :
    exec i s = .next { s with y := x, ok := true, ill := false } := by
  rw [exec_eq_drive, h]
  rfl

/-- `from_float` is the identity on words (R95). -/
theorem resultOf_fromFloat (a b : Word) : resultOf .fromFloat a b = resultPresent a := rfl

/-- `as_float` is the identity on words (R115). -/
theorem resultOf_asFloat (a b : Word) : resultOf .asFloat a b = resultPresent a := rfl

/-- Every operation of group 0 has a present result, whatever its operands (R102). -/
theorem resultOf_present_of_group_zero {i : Instr} (hgroup : i.group = 0#2) (a b : Word) :
    ∃ x, resultOf i a b = resultPresent x := by
  cases i with
  | nanTemplate => exact ⟨template, rfl⟩
  | fromFloat => exact ⟨a, resultOf_fromFloat a b⟩
  | fromSigned => exact ⟨boxSigned a, rfl⟩
  | fromUnsigned => exact ⟨boxUnsigned a, rfl⟩
  | fromPointer => exact ⟨boxPointer a, rfl⟩
  | _ => exact absurd hgroup (by decide)

/-- Settles O15: both operations have the present result `a`, for every word (R95, R115). -/
theorem floatsPassUnchanged : Obligations.FloatsPassUnchanged := fun s =>
  ⟨exec_of_resultOf_eq_present (resultOf_fromFloat s.a s.b), exec_of_resultOf_eq_present (resultOf_asFloat s.a s.b)⟩

/-- Settles O18: group 0 has only present results (`resultOf_present_of_group_zero`), and a present result drives `ok = 1`
and `ill = 0` (R102). -/
theorem constructionNeverFails : Obligations.ConstructionNeverFails := by
  intro i s hgroup
  obtain ⟨x, hx⟩ := resultOf_present_of_group_zero hgroup s.a s.b
  exact ⟨_, exec_of_resultOf_eq_present hx, rfl, rfl⟩

end Sys2Proof.Proofs.Encode
end

section
/-! Proofs of the statements about exceptions (spec/60_exceptions.md). -/

namespace Sys2Proof.Proofs.Exceptions

open Sys2Proof Sys2Proof.Machine Sys2Proof.Laws

/-- Settles O7: a defined code and a reserved code alike only drive the outputs with the code's result
(`step_eq_drive`), so the driven state is the next one (R135). -/
theorem everyStepGoesOn : Obligations.EveryStepGoesOn := fun s =>
  ⟨s.drive (resultOfCode s.op s.a s.b), step_eq_drive s⟩

end Sys2Proof.Proofs.Exceptions
end

section
/-! The operation map as equivalences (R65 to R67), and the statements that rest on it alone: which operation a code
selects, and what a step and a written evaluation run. -/

namespace Sys2Proof.Proofs.OperationMap

open Sys2Proof Sys2Proof.Machine Sys2Proof.Safety Sys2Proof.Laws

theorem decode_encode (i : Instr) : decode (encode i) = .instr i := by
  cases i <;> rfl

/-- Every row of R66 holds the code that R65's two fields give its operation. -/
theorem code_of_mem_opTable : ∀ r ∈ opTable, r.code = encode r.instr := by decide

/-- Each operation has one code (R66). -/
theorem decode_eq_instr_iff (op : OpCode) (i : Instr) : decode op = .instr i ↔ op = encode i := by
  constructor
  · intro hdecode
    unfold decode at hdecode
    split at hdecode
    · rename_i r hfind
      have hcode : r.code = op := by simpa using List.find?_some hfind
      have hinstr : r.instr = i := Decoded.instr.inj hdecode
      rw [← hcode, ← hinstr]
      exact code_of_mem_opTable r (List.mem_of_find?_eq_some hfind)
    · cases hdecode
  · rintro rfl
    exact decode_encode i

/-- The decoder rejects exactly the codes that R67 lists. -/
theorem decode_eq_reserved_iff : ∀ op : OpCode, decode op = .reserved op ↔ op ∈ reservedCodes := by decide

/-- A reserved code is reported as itself. -/
theorem decode_reserved_self {op op' : OpCode} (h : decode op = .reserved op') : decode op = .reserved op := by
  unfold decode at h ⊢
  split at h
  · cases h
  · rfl

theorem encode_not_reserved (i : Instr) : encode i ∉ reservedCodes := by
  rw [← decode_eq_reserved_iff, decode_encode]
  exact Decoded.noConfusion

/-- Every code is an operation's or one of R67's. -/
theorem code_cases (op : OpCode) : (∃ i, op = encode i) ∨ op ∈ reservedCodes := by
  cases hdecode : decode op with
  | instr i => exact .inl ⟨i, (decode_eq_instr_iff op i).1 hdecode⟩
  | reserved op' => exact .inr ((decode_eq_reserved_iff op).1 (decode_reserved_self hdecode))

theorem resultOfCode_of_reserved {op : OpCode} (h : op ∈ reservedCodes) (a b : Word) :
    resultOfCode op a b = resultReserved := by
  rw [resultOfCode, (decode_eq_reserved_iff op).2 h]

/-- No defined code sets `ill` (R66). -/
theorem resultOf_ill (i : Instr) (a b : Word) : (resultOf i a b).ill = false := by
  have hget (v : Variant) (x : Word) : (valueIf v a x).ill = false := by
    unfold valueIf
    split <;> rfl
  cases i with
  | classify =>
    show (resultClass (classifyWord a)).ill = false
    cases classifyWord a <;> rfl
  | getFloat => exact hget _ _
  | getSigned => exact hget _ _
  | getUnsigned => exact hget _ _
  | getPointer => exact hget _ _
  | _ => rfl

/-- The five wires of `op` carry the low five bits of a word that has them (R7, R28). -/
theorem toNat_opCodeOfTableWord {nbits : Nat} (h : 5 ≤ nbits) (w : Nat) :
    (opCodeOfTableWord nbits w).toNat = w % 32 := by
  rw [opCodeOfTableWord, BitVec.toNat_ofNat]
  exact Nat.mod_mod_of_dvd w (Nat.pow_dvd_pow 2 h)

theorem decodeTableWord_eq_some_iff (nbits w : Nat) (i : Instr) :
    decodeTableWord nbits w = some i ↔ decode (opCodeOfTableWord nbits w) = .instr i := by
  unfold decodeTableWord
  cases decode (opCodeOfTableWord nbits w) <;> simp

/-- Settles O4: the decoder compares all five bits with the one code of the operation (`decode_eq_instr_iff`), and the five
wires carry the word modulo 32. -/
theorem decodeAndEncodeAgree : Obligations.DecodeAndEncodeAgree := by
  intro i nbits w hbits
  rw [decodeTableWord_eq_some_iff, decode_eq_instr_iff, ← BitVec.toNat_inj, toNat_opCodeOfTableWord hbits]

/-- Settles O3: a listed code has the reserved result, and a code that is not listed is an operation's, whose result leaves
`ill` at 0 (`resultOf_ill`). -/
theorem reservedCodesReportIllegal : Obligations.ReservedCodesReportIllegal := by
  constructor
  · intro s hreserved
    rw [step_eq_drive, resultOfCode_of_reserved hreserved]
    rfl
  · intro s t hstep
    rw [step_eq_drive] at hstep
    obtain rfl := Host.Outcome.next.inj hstep
    rw [State.drive_ill]
    obtain ⟨i, hop⟩ | hreserved := code_cases s.op
    · rw [hop, resultOfCode_encode, resultOf_ill]
      simp [encode_not_reserved]
    · simp [resultOfCode_of_reserved hreserved, hreserved]

/-- Settles O1: the decoder evaluated on the seven written codes. -/
theorem writtenCodesDecode : Obligations.WrittenCodesDecode := by
  unfold Obligations.WrittenCodesDecode
  decide

/-- Settles O2: `step` selects on the decoded code and adds nothing. -/
theorem stepRunsDecodedOperation : Obligations.StepRunsDecodedOperation := by
  intro s i hdecode
  rw [step, hdecode]

/-- Settles O5: a placed word puts its code on `op`, which O2 runs, and leaves every other port. -/
theorem placedWordRunsItsOperation : Obligations.PlacedWordRunsItsOperation := by
  intro s i nbits w hdecode
  exact ⟨stepRunsDecodedOperation _ i ((decodeTableWord_eq_some_iff nbits w i).1 hdecode), rfl⟩

/-- Settles O8: an operation that answers a next state has only driven the outputs (`exec_next`). -/
theorem operationsKeepTheInputs : Obligations.OperationsKeepTheInputs := by
  intro i s t hexec
  rw [exec_next hexec]
  exact ⟨rfl, rfl, rfl⟩

/-- Settles O10: the second step drives the outputs with the result of the same inputs, over the first step's outputs. -/
theorem repeatedEvaluationIsUnobservable : Obligations.RepeatedEvaluationIsUnobservable := by
  intro s t hstep
  rw [step_eq_drive] at hstep
  obtain rfl := Host.Outcome.next.inj hstep
  rw [step_eq_drive]
  rfl

/-- The result depends only on the operands that R66's column "operands read" counts. -/
theorem resultOf_congr {i : Instr} {a a' b b' : Word} (ha : 1 ≤ i.arity → a = a') (hb : 2 ≤ i.arity → b = b') :
    resultOf i a b = resultOf i a' b' := by
  cases i with
  | nanTemplate => rfl
  | eq => rw [ha (by decide), hb (by decide)]
  | _ => rw [ha (by decide)]; rfl

theorem getD_eq_of_lt_length {l : List Word} {n : Nat} (h : n < l.length) (x y : Word) : l.getD n x = l.getD n y := by
  rw [List.getD_eq_getElem l x h, List.getD_eq_getElem l y h]

/-- Settles O6: a written evaluation presents its operation's own code and its operands, and its result is that of the
operands written, since an operation reads no more of them than its arity (`resultOf_congr`). -/
theorem writtenEvaluationDeterminesItsResult : Obligations.WrittenEvaluationDeterminesItsResult := by
  intro e hwf
  have hlength : e.operands.length = e.instr.arity := by simpa [Evaluation.wellFormed] using hwf
  have hrun (s : State) : step (s.presentEvaluation e) = exec e.instr (s.presentEvaluation e) :=
    stepRunsDecodedOperation _ _ (decode_encode e.instr)
  refine ⟨fun s => ⟨hrun s, ?_, ?_⟩, resultOf e.instr (e.operands.getD 0 0#64) (e.operands.getD 1 0#64), fun s => ?_⟩
  · intro x hx
    show e.operands.getD 0 s.a = x
    rw [List.getD_eq_getElem?_getD, hx, Option.getD_some]
  · intro x hx
    show e.operands.getD 1 s.b = x
    rw [List.getD_eq_getElem?_getD, hx, Option.getD_some]
  · have hresult : resultOf e.instr (s.presentEvaluation e).a (s.presentEvaluation e).b =
        resultOf e.instr (e.operands.getD 0 0#64) (e.operands.getD 1 0#64) :=
      resultOf_congr (fun h => getD_eq_of_lt_length (by omega) _ _) (fun h => getD_eq_of_lt_length (by omega) _ _)
    refine ⟨_, (hrun s).trans (exec_eq_drive _ _), ?_⟩
    rw [hresult]
    exact ⟨rfl, rfl, rfl⟩

end Sys2Proof.Proofs.OperationMap
end

section
/-! Facts about the fields of a word that several statements share: the sign and magnitude of an `i64` as integers, the
fields of a boxed word `{S, 0x7FF, T, P}`, and what the fields below the sign bit determine. -/

namespace Sys2Proof.Proofs.Fields

open Sys2Proof Sys2Proof.Machine Sys2Proof.Safety Sys2Proof.Laws

theorem payloadField_lt (w : Word) : payloadField w < 2 ^ 48 := Nat.mod_lt _ (by decide)

/-- Bit 63 of an `i64` is set exactly when the integer is negative (R9, R96). -/
theorem signOf_eq_decide (v : Word) : signOf v = decide (v.toInt < 0) := by
  rw [Bool.eq_iff_iff, decide_eq_true_iff, signOf_iff, signField, BitVec.toInt_eq_toNat_cond]
  have := v.isLt
  split <;> omega

theorem payloadOf_eq_ofNat (w : Word) : payloadOf w = BitVec.ofNat 48 w.toNat := by
  apply BitVec.eq_of_toNat_eq
  rw [toNat_payloadOf, payloadField, BitVec.toNat_ofNat]

theorem payloadOf_magnitude64_eq_ofNat (v : Word) : payloadOf (magnitude64 v) = BitVec.ofNat 48 v.toInt.natAbs := by
  rw [payloadOf_eq_ofNat, toNat_magnitude64]

/-! The fields of a boxed word as numbers. -/

theorem signField_boxOf (s : Bool) (t : Tag) (p : Payload) : signField (boxOf s t p) = s.toNat := by
  rw [← toNat_signOf, signOf_boxOf]

theorem exponentField_boxOf (s : Bool) (t : Tag) (p : Payload) : exponentField (boxOf s t p) = 0x7FF := by
  rw [← toNat_exponentOf, exponentOf_boxOf]
  rfl

theorem tagField_boxOf (s : Bool) (t : Tag) (p : Payload) : tagField (boxOf s t p) = t.toNat := by
  rw [← toNat_tagOf, tagOf_boxOf]

theorem payloadField_boxOf (s : Bool) (t : Tag) (p : Payload) : payloadField (boxOf s t p) = p.toNat := by
  rw [← toNat_payloadOf, payloadOf_boxOf]

theorem signedNumber_boxOf (s : Bool) (t : Tag) (p : Payload) :
    signedNumber (boxOf s t p) = if s then -(p.toNat : Int) else p.toNat := by
  rw [signedNumber, signField_boxOf, payloadField_boxOf]
  cases s <;> rfl

/-- A boxed word is a NaN pattern unless tag and payload are both zero, which is an infinity (R62, R90). -/
theorem NaNPattern_boxOf_iff (s : Bool) (t : Tag) (p : Payload) :
    NaNPattern (boxOf s t p) = true ↔ t ≠ 0#4 ∨ p ≠ 0#48 := by
  rw [NaNPattern_iff, mantissaField_eq, exponentField_boxOf, tagField_boxOf, payloadField_boxOf]
  simp only [ne_eq, ← BitVec.toNat_inj, BitVec.toNat_ofNat, Nat.zero_mod, true_and]
  omega

/-! The words of the three constructors with a tag of their own (R96 to R98). -/

theorem boxSigned_eq_boxOf (v : Word) :
    boxSigned v = boxOf (decide (v.toInt < 0)) 2#4 (BitVec.ofNat 48 v.toInt.natAbs) := by
  rw [boxSigned_eq, signOf_eq_decide, payloadOf_magnitude64_eq_ofNat]

theorem boxUnsigned_eq_boxOf (v : Word) : boxUnsigned v = boxOf false 3#4 (BitVec.ofNat 48 v.toNat) := by
  rw [boxUnsigned_eq, payloadOf_eq_ofNat]

theorem boxPointer_eq_boxOf (v : Word) : boxPointer v = boxOf false 4#4 (BitVec.ofNat 48 v.toNat) := by
  rw [boxPointer_eq, payloadOf_eq_ofNat]

theorem toNat_boxOf_ofNat (s : Bool) (t : Tag) (m : Nat) :
    (boxOf s t (BitVec.ofNat 48 m)).toNat = boxNumber s.toNat t.toNat m := by
  rw [toNat_boxOf, BitVec.toNat_ofNat, boxNumber, boxNumber, Nat.mod_mod]

theorem variantOf_boxSigned (v : Word) : variantOf (boxSigned v) = some .signedInt := by
  rw [variantOf_eq_signedInt_iff, boxSigned_eq, NaNPattern_boxOf_iff, tagField_boxOf]
  exact ⟨.inl (by decide), rfl⟩

theorem variantOf_boxUnsigned (v : Word) : variantOf (boxUnsigned v) = some .unsignedInt := by
  rw [variantOf_eq_unsignedInt_iff, boxUnsigned_eq, NaNPattern_boxOf_iff, tagField_boxOf]
  exact ⟨.inl (by decide), rfl⟩

theorem variantOf_boxPointer (v : Word) : variantOf (boxPointer v) = some .pointer := by
  rw [variantOf_eq_pointer_iff, boxPointer_eq, NaNPattern_boxOf_iff, tagField_boxOf]
  exact ⟨.inl (by decide), rfl⟩

/-- The integer in the box of an `i64`: its sign, and its absolute value reduced modulo 2^48 (R99 (b)). -/
theorem signedNumber_boxSigned (v : Word) :
    signedNumber (boxSigned v) = v.toInt.sign * ((v.toInt.natAbs % 2 ^ 48 : Nat) : Int) := by
  rw [boxSigned_eq_boxOf, signedNumber_boxOf, BitVec.toNat_ofNat]
  obtain hneg | hzero | hpos := lt_trichotomy v.toInt 0
  · simp [hneg, Int.sign_eq_neg_one_of_neg hneg]
  · simp [hzero]
  · simp [hpos.le, Int.sign_eq_one_of_pos hpos]

theorem signedNumber_boxSigned_of_inRange {v : Word} (hlo : -2 ^ 48 < v.toInt) (hhi : v.toInt < 2 ^ 48) :
    signedNumber (boxSigned v) = v.toInt := by
  rw [signedNumber_boxSigned, Nat.mod_eq_of_lt (by omega), Int.sign_mul_natAbs]

theorem payloadField_boxUnsigned (v : Word) : payloadField (boxUnsigned v) = v.toNat % 2 ^ 48 := by
  rw [boxUnsigned_eq_boxOf, payloadField_boxOf, BitVec.toNat_ofNat]

theorem payloadField_boxPointer (v : Word) : payloadField (boxPointer v) = v.toNat % 2 ^ 48 := by
  rw [boxPointer_eq_boxOf, payloadField_boxOf, BitVec.toNat_ofNat]

/-! What the three fields below the sign bit determine (R60). -/

theorem NaNPattern_congr {v w : Word} (he : exponentOf v = exponentOf w) (ht : tagOf v = tagOf w)
    (hp : payloadOf v = payloadOf w) : NaNPattern v = NaNPattern w := by
  rw [Bool.eq_iff_iff, NaNPattern_iff, NaNPattern_iff, mantissaField_eq, mantissaField_eq, ← toNat_exponentOf,
    ← toNat_exponentOf, ← toNat_tagOf, ← toNat_tagOf, ← toNat_payloadOf, ← toNat_payloadOf, he, ht, hp]

theorem classifyWord_congr {v w : Word} (he : exponentOf v = exponentOf w) (ht : tagOf v = tagOf w)
    (hp : payloadOf v = payloadOf w) : classifyWord v = classifyWord w := by
  rw [classifyWord, classifyWord, isNaN_eq, isNaN_eq, NaNPattern_congr he ht hp, ht]

/-- Two words agree in their low 63 bits exactly when they agree in exponent, tag and payload. -/
theorem low63_eq_iff (v w : Word) : v.toNat % 2 ^ 63 = w.toNat % 2 ^ 63 ↔
    exponentOf v = exponentOf w ∧ tagOf v = tagOf w ∧ payloadOf v = payloadOf w := by
  simp only [← BitVec.toNat_inj, toNat_exponentOf, toNat_tagOf, toNat_payloadOf, exponentField, tagField, payloadField]
  omega

/-- A word whose low 63 bits are zero is a zero of a double, no NaN pattern. -/
theorem not_NaNPattern_of_low63_eq_zero {w : Word} (h : w.toNat % 2 ^ 63 = 0) : ¬ NaNPattern w := by
  rw [NaNPattern_iff, mantissaField]
  omega

/-- The sign and exponent of a word are its top twelve bits (R55, R87). -/
theorem signOf_and_exponentOf_of_top12 {v w : Word} (h : v.extractLsb' 52 12 = w.extractLsb' 52 12) :
    signOf v = signOf w ∧ exponentOf v = exponentOf w := by
  have hsign (x : Word) : signOf x = (x.extractLsb' 52 12).getLsbD 11 := by simp [signOf]
  have hexponent (x : Word) : exponentOf x = (x.extractLsb' 52 12).setWidth 11 := by
    apply BitVec.eq_of_getLsbD_eq
    intro i hi
    simp [exponentOf, hi, Nat.lt_succ_of_lt hi]
  exact ⟨by rw [hsign, hsign, h], by rw [hexponent, hexponent, h]⟩

/-! Each write, bit by bit (R84 to R87). -/

theorem getLsbD_setTag (w : Word) (t : Tag) {i : Nat} (hi : i < 64) :
    (setTag w t).getLsbD i = if 48 ≤ i ∧ i < 52 then t.getLsbD (i - 48) else w.getLsbD i := by
  unfold setTag tagMask Config.tagShift
  interval_cases i <;> simp

theorem getLsbD_setPayload (w : Word) (p : Payload) {i : Nat} (hi : i < 64) :
    (setPayload w p).getLsbD i = if i < 48 then p.getLsbD i else w.getLsbD i := by
  unfold setPayload payloadMask
  interval_cases i <;> simp

theorem getLsbD_setSign (w : Word) (s : Bool) {i : Nat} (hi : i < 64) :
    (setSign w s).getLsbD i = if i = 63 then s else w.getLsbD i := by
  unfold setSign signMask Config.signShift
  interval_cases i <;> simp

theorem getLsbD_signMask {i : Nat} (hi : i < 64) : signMask.getLsbD i = decide (i = 63) := by
  unfold signMask
  interval_cases i <;> rfl

/-- Flipping bit 63 is a write of the sign (R83, R86). -/
theorem xor_signMask (w : Word) : w ^^^ signMask = setSign w (!signOf w) := by
  apply BitVec.eq_of_getLsbD_eq
  intro i hi
  rw [BitVec.getLsbD_xor, getLsbD_signMask hi, getLsbD_setSign w _ hi]
  obtain rfl | hne := eq_or_ne i 63
  · simp [signOf]
  · simp [hne]

end Sys2Proof.Proofs.Fields
end

section
/-! Each result in the numbers of Safety: the four shapes a result has (R11), the value comparison of `eq` (R130), and
from them the settled state as the fixed point of the step (R155). -/

namespace Sys2Proof.Proofs.Settled

open Sys2Proof Sys2Proof.Machine Sys2Proof.Safety Sys2Proof.Laws
open Sys2Proof.Proofs.OperationMap Sys2Proof.Proofs.Fields

/-- R130's value `e` compares the typed values of the two words. -/
theorem boxedEq_iff (x z : Word) : boxedEq x z = true ↔ SameValue x z := by
  unfold boxedEq SameValue valueOf
  rw [classifyWord_eq, classifyWord_eq]
  cases variantOf x with
  | none => simp
  | some v =>
    cases variantOf z with
    | none => simp
    | some u =>
      cases v with
      | float => cases u <;> simp [Value.Equal, floatEq_iff]
      | signedInt => cases u <;> simp [Value.Equal, signedFieldsEq_iff]
      | unsignedInt => cases u <;> simp [Value.Equal, payloadFieldsEq_iff]
      | pointer => cases u <;> simp [Value.Equal, payloadFieldsEq_iff]

/-! The four shapes of a result. -/

theorem result_eq_iff {p : Prop} {x y : Word} (hp : y = x ↔ p) (k l ok ill : Bool) :
    (⟨x, k, l⟩ : Result) = ⟨y, ok, ill⟩ ↔ (p ∧ ok = k) ∧ ill = l := by
  rw [Result.mk.injEq, ← hp, and_assoc]
  exact and_congr eq_comm (and_congr eq_comm eq_comm)

theorem resultPresent_eq_iff {p : Prop} {x y : Word} (hp : y = x ↔ p) (ok ill : Bool) :
    resultPresent x = ⟨y, ok, ill⟩ ↔ (p ∧ ok = true) ∧ ill = false := result_eq_iff hp true false ok ill

theorem resultAbsent_eq_iff (y : Word) (ok ill : Bool) :
    resultAbsent = ⟨y, ok, ill⟩ ↔ (y.toNat = 0 ∧ ok = false) ∧ ill = false :=
  result_eq_iff BitVec.toNat_inj.symm false false ok ill

theorem resultReserved_eq_iff (y : Word) (ok ill : Bool) :
    resultReserved = ⟨y, ok, ill⟩ ↔ (y.toNat = 0 ∧ ok = false) ∧ ill = true :=
  result_eq_iff BitVec.toNat_inj.symm false true ok ill

theorem resultBool_eq_present (c : Bool) : resultBool c = resultPresent (if c = true then 1#64 else 0#64) := by
  cases c <;> rfl

theorem resultBool_eq_iff {c : Bool} {p : Prop} (hp : c = true ↔ p) (y : Word) (ok ill : Bool) :
    resultBool c = ⟨y, ok, ill⟩ ↔ Tells p y ok ∧ ill = false := by
  rw [resultBool_eq_present, resultPresent_eq_iff Iff.rfl, Tells, ← hp, ← BitVec.toNat_inj]
  cases c <;> simp [and_comm]

theorem valueIf_eq_iff {p : Prop} {x y : Word} (hp : y = x ↔ p) (v : Variant) (w : Word) (ok ill : Bool) :
    valueIf v w x = ⟨y, ok, ill⟩ ↔ Yields (variantOf w = some v) p y ok ∧ ill = false := by
  rw [valueIf_eq, Yields]
  by_cases hv : variantOf w = some v
  · rw [if_pos hv, resultPresent_eq_iff hp]
    simp [hv]
  · rw [if_neg hv, resultAbsent_eq_iff]
    simp [hv]

theorem toNat_zextTag (t : Tag) : (zextTag t).toNat = t.toNat := by
  rw [zextTag, BitVec.toNat_setWidth_of_le (by decide)]

/-- `classify`'s result is that of R105's table. -/
theorem answers_classify (a b y : Word) (ok ill : Bool) :
    Answers (encode .classify) a b y ok ill ↔ resultClass (classifyWord a) = ⟨y, ok, ill⟩ := by
  rw [classifyWord_eq]
  change (_ ∧ ill = false) ↔ _
  have hnumber (t : Tag) : y = zextTag t ↔ y.toNat = t.toNat := by rw [← BitVec.toNat_inj, toNat_zextTag]
  cases variantOf a with
  | none => exact (result_eq_iff ((hnumber _).trans (by rw [toNat_tagOf])) false false ok ill).symm
  | some v =>
    cases v with
    | float => exact (result_eq_iff (hnumber 1#4) true false ok ill).symm
    | signedInt => exact (result_eq_iff (hnumber 2#4) true false ok ill).symm
    | unsignedInt => exact (result_eq_iff (hnumber 3#4) true false ok ill).symm
    | pointer => exact (result_eq_iff (hnumber 4#4) true false ok ill).symm

/-- A reserved code has R67's answer. -/
theorem answers_reserved {op : OpCode} (h : op ∈ reservedCodes) (a b y : Word) (ok ill : Bool) :
    Answers op a b y ok ill ↔ (y.toNat = 0 ∧ ok = false) ∧ ill = true := by
  simp only [reservedCodes, List.mem_cons, List.not_mem_nil, or_false] at h
  rcases h with rfl | rfl | rfl | rfl | rfl | rfl | rfl | rfl | rfl | rfl | rfl | rfl | rfl <;> exact Iff.rfl

/-! The words of the results as numbers. -/

theorem eq_template_iff (y : Word) : y = template ↔ y.toNat = boxNumber 0 0 0 := by
  rw [← BitVec.toNat_inj]
  rfl

theorem eq_boxSigned_iff (a y : Word) :
    y = boxSigned a ↔ y.toNat = boxNumber (if a.toInt < 0 then 1 else 0) 2 a.toInt.natAbs := by
  rw [← BitVec.toNat_inj, boxSigned_eq_boxOf, toNat_boxOf_ofNat]
  by_cases h : a.toInt < 0 <;> simp [h]

theorem eq_boxUnsigned_iff (a y : Word) : y = boxUnsigned a ↔ y.toNat = boxNumber 0 3 a.toNat := by
  rw [← BitVec.toNat_inj, boxUnsigned_eq_boxOf, toNat_boxOf_ofNat]
  rfl

theorem eq_boxPointer_iff (a y : Word) : y = boxPointer a ↔ y.toNat = boxNumber 0 4 a.toNat := by
  rw [← BitVec.toNat_inj, boxPointer_eq_boxOf, toNat_boxOf_ofNat]
  rfl

theorem eq_signedValue_iff (a y : Word) : y = signedValue a ↔ y.toInt = signedNumber a := by
  rw [← BitVec.toInt_inj, toInt_signedValue]

theorem eq_unsignedValue_iff (a y : Word) : y = unsignedValue a ↔ y.toNat = payloadField a := by
  rw [← BitVec.toNat_inj, toNat_unsignedValue]

theorem eq_pointerValue_iff (a y : Word) : y = pointerValue a ↔ y.toNat = payloadField a := by
  rw [← BitVec.toNat_inj, toNat_pointerValue]

/-- The two descriptions of an operation agree: the number-level answer for its code is the result of its masks and
shifts. -/
theorem answers_encode_iff (i : Instr) (a b y : Word) (ok ill : Bool) :
    Answers (encode i) a b y ok ill ↔ resultOf i a b = ⟨y, ok, ill⟩ := by
  cases i with
  | nanTemplate => exact (resultPresent_eq_iff (eq_template_iff y) ok ill).symm
  | fromFloat => exact (resultPresent_eq_iff Iff.rfl ok ill).symm
  | fromSigned => exact (resultPresent_eq_iff (eq_boxSigned_iff a y) ok ill).symm
  | fromUnsigned => exact (resultPresent_eq_iff (eq_boxUnsigned_iff a y) ok ill).symm
  | fromPointer => exact (resultPresent_eq_iff (eq_boxPointer_iff a y) ok ill).symm
  | classify => exact answers_classify a b y ok ill
  | isFloat => exact (resultBool_eq_iff (by simp [isNaN_eq]) y ok ill).symm
  | isSigned => exact (resultBool_eq_iff (isVariant_iff .signedInt a) y ok ill).symm
  | isUnsigned => exact (resultBool_eq_iff (isVariant_iff .unsignedInt a) y ok ill).symm
  | isPointer => exact (resultBool_eq_iff (isVariant_iff .pointer a) y ok ill).symm
  | eq => exact (resultBool_eq_iff (boxedEq_iff a b) y ok ill).symm
  | asFloat => exact (resultPresent_eq_iff Iff.rfl ok ill).symm
  | asSigned => exact (resultPresent_eq_iff (eq_signedValue_iff a y) ok ill).symm
  | asUnsigned => exact (resultPresent_eq_iff (eq_unsignedValue_iff a y) ok ill).symm
  | asPointer => exact (resultPresent_eq_iff (eq_pointerValue_iff a y) ok ill).symm
  | getFloat => exact (valueIf_eq_iff Iff.rfl .float a ok ill).symm
  | getSigned => exact (valueIf_eq_iff (eq_signedValue_iff a y) .signedInt a ok ill).symm
  | getUnsigned => exact (valueIf_eq_iff (eq_unsignedValue_iff a y) .unsignedInt a ok ill).symm
  | getPointer => exact (valueIf_eq_iff (eq_pointerValue_iff a y) .pointer a ok ill).symm

/-- The two descriptions agree on every code, reserved ones included. -/
theorem answers_iff (op : OpCode) (a b y : Word) (ok ill : Bool) :
    Answers op a b y ok ill ↔ resultOfCode op a b = ⟨y, ok, ill⟩ := by
  obtain ⟨i, rfl⟩ | hreserved := code_cases op
  · rw [resultOfCode_encode, answers_encode_iff]
  · rw [answers_reserved hreserved, resultOfCode_of_reserved hreserved, resultReserved_eq_iff]

/-- Settles O13: a step drives the outputs with the code's result, which leaves the state as it is exactly when the outputs
are that result already; `answers_iff` says that this is what `Settled` says. -/
theorem settledExactlyWhenStepChangesNothing : Obligations.SettledExactlyWhenStepChangesNothing := by
  intro s
  rw [Settled, answers_iff, step_eq_drive, Host.Outcome.next.injEq]
  constructor
  · intro hresult
    rw [hresult]
    rfl
  · intro hdrive
    rw [← hdrive]
    rfl

/-- Settles O12: the state after a step is a fixed point of the step (O10), hence settled (O13), and a step only drives the
outputs. -/
theorem everyStepSettlesThePorts : Obligations.EveryStepSettlesThePorts := by
  intro s t hstep
  refine ⟨(settledExactlyWhenStepChangesNothing t).2 (repeatedEvaluationIsUnobservable s t hstep), ?_⟩
  rw [step_eq_drive] at hstep
  obtain rfl := Host.Outcome.next.inj hstep
  exact ⟨rfl, rfl, rfl⟩

/-- Settles O11: the step from reset changes nothing, so the reset state is settled (O13). -/
theorem resetIsSettled : Obligations.ResetIsSettled :=
  (settledExactlyWhenStepChangesNothing State.reset).2 rfl

end Sys2Proof.Proofs.Settled
end

section
/-! The result of each operation in closed form, and the statements that say what one operation does from every state. -/

namespace Sys2Proof.Proofs.Results

open Sys2Proof Sys2Proof.Machine Sys2Proof.Safety Sys2Proof.Laws
open Sys2Proof.Proofs.Encode Sys2Proof.Proofs.Fields Sys2Proof.Proofs.Settled

/-! The words of the results. -/

theorem zextTag_tagOf (w : Word) : zextTag (tagOf w) = BitVec.ofNat 64 (tagField w) := by
  rw [← toNat_tagOf, zextTag, BitVec.ofNat_toNat]

theorem signedValue_eq_ofInt (w : Word) : signedValue w = BitVec.ofInt 64 (signedNumber w) := by
  rw [← toInt_signedValue, BitVec.ofInt_toInt]

theorem unsignedValue_eq_ofNat (w : Word) : unsignedValue w = BitVec.ofNat 64 (payloadField w) := by
  rw [← toNat_unsignedValue, BitVec.ofNat_toNat, BitVec.setWidth_eq]

theorem pointerValue_eq_ofNat (w : Word) : pointerValue w = BitVec.ofNat 64 (payloadField w) :=
  unsignedValue_eq_ofNat w

/-! The results. -/

theorem resultBool_eq_ite {c : Bool} {p : Prop} [Decidable p] (hp : c = true ↔ p) :
    resultBool c = resultPresent (if p then 1#64 else 0#64) := by
  rw [resultBool_eq_present, if_congr hp rfl rfl]

theorem resultOf_isFloat (a b : Word) :
    resultOf .isFloat a b = resultPresent (if NaNPattern a then 0#64 else 1#64) := by
  show resultBool (!isNaN a) = _
  rw [isNaN_eq]
  cases NaNPattern a <;> rfl

theorem resultOf_isSigned (a b : Word) :
    resultOf .isSigned a b = resultPresent (if variantOf a = some .signedInt then 1#64 else 0#64) :=
  resultBool_eq_ite (isVariant_iff .signedInt a)

theorem resultOf_isUnsigned (a b : Word) :
    resultOf .isUnsigned a b = resultPresent (if variantOf a = some .unsignedInt then 1#64 else 0#64) :=
  resultBool_eq_ite (isVariant_iff .unsignedInt a)

theorem resultOf_isPointer (a b : Word) :
    resultOf .isPointer a b = resultPresent (if variantOf a = some .pointer then 1#64 else 0#64) :=
  resultBool_eq_ite (isVariant_iff .pointer a)

theorem resultOf_eq_of_same {a b : Word} (h : SameValue a b) : resultOf .eq a b = resultPresent 1#64 := by
  show resultBool (boxedEq a b) = _
  rw [(boxedEq_iff a b).2 h]
  rfl

theorem resultOf_eq_of_not_same {a b : Word} (h : ¬ SameValue a b) : resultOf .eq a b = resultPresent 0#64 := by
  show resultBool (boxedEq a b) = _
  rw [← boxedEq_iff, Bool.not_eq_true] at h
  rw [h]
  rfl

theorem resultOf_classify_of_some {a : Word} {v : Variant} (h : variantOf a = some v) (b : Word) :
    resultOf .classify a b = resultPresent (zextTag v.number) := by
  show resultClass (classifyWord a) = _
  rw [classifyWord_eq, h]
  rfl

theorem resultOf_classify_of_none {a : Word} (h : variantOf a = none) (b : Word) :
    resultOf .classify a b = ⟨zextTag (tagOf a), false, false⟩ := by
  show resultClass (classifyWord a) = _
  rw [classifyWord_eq, h]
  rfl

/-- R105's table on a tag: the class is the tag itself, an error outside 1 to 4. -/
theorem resultClass_classOfTag : ∀ t : Tag,
    resultClass (classOfTag t) = ⟨zextTag t, decide (1 ≤ t.toNat ∧ t.toNat ≤ 4), false⟩ := by decide

theorem resultOf_classify_of_NaNPattern {a : Word} (h : NaNPattern a = true) (b : Word) : resultOf .classify a b =
    ⟨BitVec.ofNat 64 (tagField a), decide (1 ≤ tagField a ∧ tagField a ≤ 4), false⟩ := by
  show resultClass (classifyWord a) = _
  rw [classifyWord, isNaN_eq, if_pos h, resultClass_classOfTag, zextTag_tagOf, toNat_tagOf]

theorem resultOf_asUnsigned (a b : Word) :
    resultOf .asUnsigned a b = resultPresent (BitVec.ofNat 64 (payloadField a)) := by
  rw [← unsignedValue_eq_ofNat]
  rfl

theorem resultOf_asPointer (a b : Word) :
    resultOf .asPointer a b = resultPresent (BitVec.ofNat 64 (payloadField a)) := by
  rw [← pointerValue_eq_ofNat]
  rfl

/-- A fallible extraction: present with its value, or zero with `ok` clear (the spec's decision D10). -/
theorem valueIf_eq_ite (v : Variant) (w : Word) {x x' : Word} (h : x = x') : valueIf v w x =
    ⟨if variantOf w = some v then x' else 0#64, decide (variantOf w = some v), false⟩ := by
  rw [valueIf_eq, h]
  by_cases hv : variantOf w = some v
  · rw [if_pos hv, if_pos hv, decide_eq_true hv]
    rfl
  · rw [if_neg hv, if_neg hv, decide_eq_false hv]
    rfl

/-! From a result to the next state. -/

theorem exec_of_resultOf_eq {i : Instr} {s : State} {y : Word} {ok ill : Bool}
    (h : resultOf i s.a s.b = ⟨y, ok, ill⟩) : exec i s = .next { s with y := y, ok := ok, ill := ill } := by
  rw [exec_eq_drive, h]
  rfl

/-- Settles O14: the template is a constant with a present result. -/
theorem templateResult : Obligations.TemplateResult := fun _ =>
  exec_of_resultOf_eq_present (congrArg resultPresent template_eq_expMask)

/-- Settles O16: the box of an `i64` has the sign of its integer and its absolute value (`boxSigned_eq_boxOf`). -/
theorem fromSignedResult : Obligations.FromSignedResult := fun s =>
  exec_of_resultOf_eq_present (congrArg resultPresent (boxSigned_eq_boxOf s.a))

/-- Settles O17: both boxes hold the low 48 bits under their tag. -/
theorem fromUnsignedAndFromPointerResult : Obligations.FromUnsignedAndFromPointerResult := fun s =>
  ⟨exec_of_resultOf_eq_present (congrArg resultPresent (boxUnsigned_eq_boxOf s.a)),
    exec_of_resultOf_eq_present (congrArg resultPresent (boxPointer_eq_boxOf s.a))⟩

/-- Settles O19: a word that is no NaN pattern has the variant `Float`, and on a NaN pattern `classify` is R105's table on
the tag (`resultClass_classOfTag`). -/
theorem classifyResult : Obligations.ClassifyResult := by
  intro s
  constructor
  · intro hfloat
    exact exec_of_resultOf_eq_present
      (resultOf_classify_of_some ((variantOf_eq_float_iff s.a).2 (.inl hfloat)) s.b)
  · intro hnan
    exact exec_of_resultOf_eq (resultOf_classify_of_NaNPattern hnan s.b)

/-- Settles O20: `IsNaN` is the NaN pattern (`resultOf_isFloat`). -/
theorem isFloatResult : Obligations.IsFloatResult := fun s =>
  exec_of_resultOf_eq_present (resultOf_isFloat s.a s.b)

/-- Settles O21: each test asks for its variant, and a variant other than `Float` is a NaN pattern with its one tag. -/
theorem variantTestResults : Obligations.VariantTestResults := fun s =>
  ⟨exec_of_resultOf_eq_present
      (resultBool_eq_ite ((isVariant_iff .signedInt s.a).trans (variantOf_eq_signedInt_iff s.a))),
    exec_of_resultOf_eq_present
      (resultBool_eq_ite ((isVariant_iff .unsignedInt s.a).trans (variantOf_eq_unsignedInt_iff s.a))),
    exec_of_resultOf_eq_present
      (resultBool_eq_ite ((isVariant_iff .pointer s.a).trans (variantOf_eq_pointer_iff s.a)))⟩

theorem signedNumber_bounds (w : Word) : -(2 ^ 48 - 1) ≤ signedNumber w ∧ signedNumber w ≤ 2 ^ 48 - 1 := by
  have := payloadField_lt w
  unfold signedNumber
  split <;> omega

/-- A negative result is the two's complement of its magnitude (R116). -/
theorem toNat_signedValue_of_negative {w : Word} (hs : signField w = 1) (hp : payloadField w ≠ 0) :
    (signedValue w).toNat = 2 ^ 64 - payloadField w := by
  have hvalue := toInt_signedValue w
  have := payloadField_lt w
  rw [signedNumber, if_pos hs, BitVec.toInt_eq_toNat_cond] at hvalue
  split at hvalue <;> omega

/-- Settles O22: the value is `signedNumber`'s (`toInt_signedValue`), whose magnitude has 48 bits; a negative one is
`2^64 - P` as a number, whose upper sixteen bits are ones and whose lower 48 are `2^48 - P`. -/
theorem asSignedResult : Obligations.AsSignedResult := by
  intro s
  obtain ⟨hlo, hhi⟩ := signedNumber_bounds s.a
  refine ⟨signedValue s.a, exec_of_resultOf_eq_present rfl, toInt_signedValue s.a, ?_, ?_, ?_⟩
  · rwa [toInt_signedValue]
  · rwa [toInt_signedValue]
  · intro hs hp
    have hvalue := toNat_signedValue_of_negative hs hp
    have := payloadField_lt s.a
    constructor
    · apply BitVec.eq_of_toNat_eq
      rw [BitVec.extractLsb'_toNat, hvalue, Nat.shiftRight_eq_div_pow]
      show _ = 0xFFFF
      omega
    · apply BitVec.eq_of_toNat_eq
      rw [BitVec.extractLsb'_toNat, hvalue, BitVec.toNat_neg, BitVec.extractLsb'_toNat, Nat.shiftRight_zero,
        Nat.shiftRight_zero, ← payloadField]
      omega

/-- Settles O23: both values are the payload as a number. -/
theorem asUnsignedAndAsPointerResult : Obligations.AsUnsignedAndAsPointerResult := fun s =>
  ⟨exec_of_resultOf_eq_present (resultOf_asUnsigned s.a s.b),
    exec_of_resultOf_eq_present (resultOf_asPointer s.a s.b)⟩

/-- Settles O24: each `get_*` is a `valueIf` of its variant, over the value of the total extractor. -/
theorem fallibleExtractionResults : Obligations.FallibleExtractionResults := fun s =>
  ⟨exec_of_resultOf_eq (valueIf_eq_ite .float s.a rfl),
    exec_of_resultOf_eq (valueIf_eq_ite .signedInt s.a (signedValue_eq_ofInt s.a)),
    exec_of_resultOf_eq (valueIf_eq_ite .unsignedInt s.a (unsignedValue_eq_ofNat s.a)),
    exec_of_resultOf_eq (valueIf_eq_ite .pointer s.a (pointerValue_eq_ofNat s.a))⟩

/-- Settles O25: `eq` answers the Boolean of `SameValue` (`boxedEq_iff`). -/
theorem equalityResult : Obligations.EqualityResult := fun _ =>
  ⟨fun hsame => exec_of_resultOf_eq_present (resultOf_eq_of_same hsame),
    fun hdifferent => exec_of_resultOf_eq_present (resultOf_eq_of_not_same hdifferent)⟩

end Sys2Proof.Proofs.Results
end

section
/-! Several evaluations together: round trips, the tests against each other, extraction against classification, and the
conditions that clear `ok`. -/

namespace Sys2Proof.Proofs.Evaluations

open Sys2Proof Sys2Proof.Machine Sys2Proof.Safety Sys2Proof.Laws
open Sys2Proof.Proofs.OperationMap Sys2Proof.Proofs.Fields Sys2Proof.Proofs.Settled Sys2Proof.Proofs.Results

/-! An evaluation of an operation's own code. -/

theorem evaluates_encode_iff (i : Instr) (a b y : Word) (ok ill : Bool) :
    Evaluates (encode i) a b y ok ill ↔ resultOf i a b = ⟨y, ok, ill⟩ := by
  rw [evaluates_iff, resultOfCode_encode]

theorem evaluates_of_present (i : Instr) {a b y : Word} (h : resultOf i a b = resultPresent y) :
    Evaluates (encode i) a b y true false := (evaluates_encode_iff i a b y true false).2 h

theorem evaluates_self (i : Instr) (a b : Word) :
    Evaluates (encode i) a b (resultOf i a b).y (resultOf i a b).ok false := by
  rw [evaluates_encode_iff, ← resultOf_ill i a b]

theorem evaluates_congr {i : Instr} {a a' b b' : Word} (h : resultOf i a b = resultOf i a' b') (y : Word)
    (ok ill : Bool) : Evaluates (encode i) a b y ok ill ↔ Evaluates (encode i) a' b' y ok ill := by
  rw [evaluates_encode_iff, evaluates_encode_iff, h]

theorem encode_inj {i j : Instr} : encode i = encode j ↔ i = j := by
  rw [← decode_eq_instr_iff, decode_encode, Decoded.instr.injEq]

/-! What each operation answers on a word of its variant. -/

theorem variantOf_eq_float_of_not_NaNPattern {w : Word} (h : ¬ NaNPattern w) : variantOf w = some .float :=
  (variantOf_eq_float_iff w).2 (.inl h)

/-- Only NaN patterns lack the variant `Float`. -/
theorem NaNPattern_of_variantOf_ne_float {w : Word} (h : variantOf w ≠ some .float) : NaNPattern w = true := by
  by_contra hn
  exact h (variantOf_eq_float_of_not_NaNPattern hn)

theorem valueIf_of_variantOf {v : Variant} {w : Word} (h : variantOf w = some v) (x : Word) :
    valueIf v w x = resultPresent x := by
  rw [valueIf_eq, if_pos h]

theorem signedValue_boxSigned {v : Word} (hlo : -2 ^ 48 < v.toInt) (hhi : v.toInt < 2 ^ 48) :
    signedValue (boxSigned v) = v := by
  rw [← BitVec.toInt_inj, toInt_signedValue, signedNumber_boxSigned_of_inRange hlo hhi]

theorem unsignedValue_boxUnsigned {v : Word} (h : v.toNat < 2 ^ 48) : unsignedValue (boxUnsigned v) = v := by
  rw [← BitVec.toNat_inj, toNat_unsignedValue, payloadField_boxUnsigned, Nat.mod_eq_of_lt h]

theorem pointerValue_boxPointer {v : Word} (h : v.toNat < 2 ^ 48) : pointerValue (boxPointer v) = v := by
  rw [← BitVec.toNat_inj, toNat_pointerValue, payloadField_boxPointer, Nat.mod_eq_of_lt h]

/-- Settles O26: boxing a double is the identity, and a word that is no NaN pattern has the variant `Float`. -/
theorem floatRoundTrip : Obligations.FloatRoundTrip := by
  intro v b c hfloat
  have hvariant := variantOf_eq_float_of_not_NaNPattern hfloat
  refine ⟨v, evaluates_of_present .fromFloat rfl, evaluates_of_present .classify (resultOf_classify_of_some hvariant c),
    evaluates_of_present .isFloat ?_, evaluates_of_present .asFloat rfl,
    evaluates_of_present .getFloat (valueIf_of_variantOf hvariant v)⟩
  rw [resultOf_isFloat, if_neg hfloat]

/-- Settles O27: the box has the variant `SignedInt`, and its integer is the operand's (`signedValue_boxSigned`). -/
theorem signedRoundTrip : Obligations.SignedRoundTrip := by
  intro v b c hlo hhi
  have hvalue := signedValue_boxSigned hlo hhi
  refine ⟨boxSigned v, evaluates_of_present .fromSigned rfl,
    evaluates_of_present .classify (resultOf_classify_of_some (variantOf_boxSigned v) c),
    evaluates_of_present .asSigned (congrArg resultPresent hvalue), evaluates_of_present .getSigned ?_⟩
  exact (valueIf_of_variantOf (variantOf_boxSigned v) _).trans (congrArg resultPresent hvalue)

/-- Settles O28: each box has its own variant, and its payload is the operand. -/
theorem unsignedAndPointerRoundTrip : Obligations.UnsignedAndPointerRoundTrip := by
  intro v b c hrange
  constructor
  · have hvalue := unsignedValue_boxUnsigned hrange
    refine ⟨boxUnsigned v, evaluates_of_present .fromUnsigned rfl,
      evaluates_of_present .classify (resultOf_classify_of_some (variantOf_boxUnsigned v) c),
      evaluates_of_present .asUnsigned (congrArg resultPresent hvalue), evaluates_of_present .getUnsigned ?_⟩
    exact (valueIf_of_variantOf (variantOf_boxUnsigned v) _).trans (congrArg resultPresent hvalue)
  · have hvalue := pointerValue_boxPointer hrange
    refine ⟨boxPointer v, evaluates_of_present .fromPointer rfl,
      evaluates_of_present .classify (resultOf_classify_of_some (variantOf_boxPointer v) c),
      evaluates_of_present .asPointer (congrArg resultPresent hvalue), evaluates_of_present .getPointer ?_⟩
    exact (valueIf_of_variantOf (variantOf_boxPointer v) _).trans (congrArg resultPresent hvalue)

/-- Settles O29: the fields of the three boxes as numbers, without a range. -/
theorem outOfRangeValuesComeBackReduced : Obligations.OutOfRangeValuesComeBackReduced := fun v _ _ =>
  ⟨⟨boxSigned v, signedValue (boxSigned v), evaluates_of_present .fromSigned rfl, evaluates_of_present .asSigned rfl,
      (toInt_signedValue _).trans (signedNumber_boxSigned v)⟩,
    ⟨boxUnsigned v, unsignedValue (boxUnsigned v), evaluates_of_present .fromUnsigned rfl,
      evaluates_of_present .asUnsigned rfl, (toNat_unsignedValue _).trans (payloadField_boxUnsigned v)⟩,
    ⟨boxPointer v, pointerValue (boxPointer v), evaluates_of_present .fromPointer rfl,
      evaluates_of_present .asPointer rfl, (toNat_pointerValue _).trans (payloadField_boxPointer v)⟩⟩

/-! Words of one variant under the classifier. -/

/-- A variant other than `Float` stands in the tag field (R58). -/
theorem tagOf_of_variantOf {w : Word} {v : Variant} (h : variantOf w = some v) (hv : v ≠ .float) :
    tagOf w = v.number := by
  cases v with
  | float => exact absurd rfl hv
  | signedInt => exact (tagOf_eq_iff w _).2 ((variantOf_eq_signedInt_iff w).1 h).2
  | unsignedInt => exact (tagOf_eq_iff w _).2 ((variantOf_eq_unsignedInt_iff w).1 h).2
  | pointer => exact (tagOf_eq_iff w _).2 ((variantOf_eq_pointer_iff w).1 h).2

theorem getLsbD_three_tagOf (w : Word) : (tagOf w).getLsbD 3 = w.getLsbD 51 := by
  simp [tagOf, tagMask, Config.tagShift]

/-- No variant's number has bit 3 set, so a word of a variant other than `Float` has bit 51 clear (the spec's decision
D21). -/
theorem getLsbD_51_of_variantOf {w : Word} {v : Variant} (h : variantOf w = some v) (hv : v ≠ .float) :
    w.getLsbD 51 = false := by
  rw [← getLsbD_three_tagOf, tagOf_of_variantOf h hv]
  cases v <;> rfl

/-- A word of a variant other than `Float`: a NaN pattern with bit 51 clear, which `classify` and the four tests name by
that variant alone. -/
theorem classified_of_variantOf {w : Word} {v : Variant} (h : variantOf w = some v) (hv : v ≠ .float) (c : Word) :
    NaNPattern w = true ∧ w.getLsbD 51 = false ∧
    Evaluates (encode .classify) w c (zextTag v.number) true false ∧ Evaluates (encode .isFloat) w c 0#64 true false ∧
    Evaluates (encode .isSigned) w c (if some v = some .signedInt then 1#64 else 0#64) true false ∧
    Evaluates (encode .isUnsigned) w c (if some v = some .unsignedInt then 1#64 else 0#64) true false ∧
    Evaluates (encode .isPointer) w c (if some v = some .pointer then 1#64 else 0#64) true false := by
  have hnan : NaNPattern w = true := NaNPattern_of_variantOf_ne_float (by simpa [h] using hv)
  refine ⟨hnan, getLsbD_51_of_variantOf h hv, evaluates_of_present .classify (resultOf_classify_of_some h c),
    evaluates_of_present .isFloat ?_, evaluates_of_present .isSigned ?_, evaluates_of_present .isUnsigned ?_,
    evaluates_of_present .isPointer ?_⟩
  · rw [resultOf_isFloat, if_pos hnan]
  · rw [resultOf_isSigned, h]
  · rw [resultOf_isUnsigned, h]
  · rw [resultOf_isPointer, h]

/-- Settles O30: each constructed word has its constructor's variant, whatever the operand (`classified_of_variantOf`). -/
theorem constructedWordsClassifyAsBuilt : Obligations.ConstructedWordsClassifyAsBuilt := by
  intro v b c n hn
  simp only [List.mem_cons, List.not_mem_nil, or_false] at hn
  obtain rfl | rfl | rfl := hn
  · exact ⟨boxSigned v, evaluates_of_present .fromSigned rfl,
      classified_of_variantOf (variantOf_boxSigned v) (by decide) c⟩
  · exact ⟨boxUnsigned v, evaluates_of_present .fromUnsigned rfl,
      classified_of_variantOf (variantOf_boxUnsigned v) (by decide) c⟩
  · exact ⟨boxPointer v, evaluates_of_present .fromPointer rfl,
      classified_of_variantOf (variantOf_boxPointer v) (by decide) c⟩

/-- The words for which no test is 1: those without a variant, and the NaN patterns that `classify` calls `Float`. -/
theorem foreignToTests_iff (w : Word) :
    ForeignToTests w = true ↔ variantOf w = none ∨ (variantOf w = some .float ∧ NaNPattern w = true) := by
  rw [variantOf_eq_none_iff, variantOf_eq_float_iff, ForeignToTests, Bool.and_eq_true, decide_eq_true_iff]
  by_cases hn : NaNPattern w = true
  · simp only [hn, true_and, and_true, not_true, false_or]
    omega
  · simp [hn]

/-- Settles O31: a word has one variant or none, and the four tests ask for different ones, `is_float` for the words of
variant `Float` that are no NaN pattern. -/
theorem variantTestsExcludeEachOther : Obligations.VariantTestsExcludeEachOther := by
  intro w b
  refine ⟨_, _, _, _, evaluates_of_present .isFloat (resultOf_isFloat w b),
    evaluates_of_present .isSigned (resultOf_isSigned w b), evaluates_of_present .isUnsigned (resultOf_isUnsigned w b),
    evaluates_of_present .isPointer (resultOf_isPointer w b), ?_⟩
  by_cases hfloat : variantOf w = some .float
  · cases hn : NaNPattern w <;> simp [foreignToTests_iff, hfloat, hn]
  · have hn := NaNPattern_of_variantOf_ne_float hfloat
    cases hv : variantOf w with
    | none => simp [foreignToTests_iff, hv, hn]
    | some v =>
      cases v with
      | float => exact absurd hv hfloat
      | _ => simp [foreignToTests_iff, hv, hn]

theorem zextTag_number_inj {u v : Variant} : zextTag u.number = zextTag v.number ↔ u = v := by
  cases u <;> cases v <;> decide

/-- `classify` answers a variant's number with `ok` set exactly for the words of that variant. -/
theorem resultOf_classify_eq_number_iff (w b : Word) (v : Variant) :
    ((resultOf .classify w b).ok = true ∧ (resultOf .classify w b).y = zextTag v.number) ↔ variantOf w = some v := by
  cases hw : variantOf w with
  | none => simp [resultOf_classify_of_none hw]
  | some u => simp [resultOf_classify_of_some hw, zextTag_number_inj]

theorem evaluates_classify_number_iff (w b : Word) (v : Variant) :
    Evaluates (encode .classify) w b (zextTag v.number) true false ↔ variantOf w = some v := by
  rw [evaluates_encode_iff]
  cases hw : variantOf w with
  | none => simp [resultOf_classify_of_none hw]
  | some u => simp [resultOf_classify_of_some hw, resultPresent, zextTag_number_inj]

theorem evaluates_isFloat_one_iff (w b : Word) :
    Evaluates (encode .isFloat) w b 1#64 true false ↔ ¬ NaNPattern w := by
  rw [evaluates_encode_iff, resultOf_isFloat]
  cases NaNPattern w <;> simp [resultPresent]

theorem evaluates_isFloat_zero_iff (w b : Word) :
    Evaluates (encode .isFloat) w b 0#64 true false ↔ NaNPattern w := by
  rw [evaluates_encode_iff, resultOf_isFloat]
  cases NaNPattern w <;> simp [resultPresent]

/-- Settles O32: `classify` says `Float` for the words that are no NaN pattern and for those with tag 1, `is_float` says 0
for the NaN patterns. -/
theorem classifyAndIsFloatDisagreeOnTagOne : Obligations.ClassifyAndIsFloatDisagreeOnTagOne := by
  intro w b
  have hclassify : Evaluates 0x08#5 w b 1#64 true false ↔ ¬ NaNPattern w ∨ tagField w = 1 :=
    (evaluates_classify_number_iff w b .float).trans (variantOf_eq_float_iff w)
  have hzero : Evaluates 0x09#5 w b 0#64 true false ↔ NaNPattern w := evaluates_isFloat_zero_iff w b
  have hone : Evaluates 0x09#5 w b 1#64 true false ↔ ¬ NaNPattern w := evaluates_isFloat_one_iff w b
  rw [hclassify, hzero, hone]
  tauto

/-! The fallible extractors. -/

theorem valueIf_ok (v : Variant) (w x : Word) : (valueIf v w x).ok = decide (variantOf w = some v) := by
  rw [valueIf_eq_ite v w rfl]

/-- Settles O33: a word has one variant or none, and each `get_*` asks for a different one. -/
theorem atMostOneFallibleExtractorIsPresent : Obligations.AtMostOneFallibleExtractorIsPresent := by
  intro w b
  refine ⟨_, _, _, _, _, _, _, _, _, _, evaluates_self .getFloat w b, evaluates_self .getSigned w b,
    evaluates_self .getUnsigned w b, evaluates_self .getPointer w b, evaluates_self .classify w b, ?_⟩
  show (valueIf .float w _).ok.toNat + (valueIf .signedInt w _).ok.toNat + (valueIf .unsignedInt w _).ok.toNat +
    (valueIf .pointer w _).ok.toNat = _
  rw [valueIf_ok, valueIf_ok, valueIf_ok, valueIf_ok]
  cases hv : variantOf w with
  | none => simp [resultOf_classify_of_none hv]
  | some v =>
    rw [resultOf_classify_of_some hv]
    cases v <;> rfl

/-- R72's `get_X` line for one variant: the fallible extractor is the total one, guarded by `classify`. -/
theorem get_eq_guarded_as {w b x : Word} (v : Variant) {asX getX : Instr} (has : resultOf asX w b = resultPresent x)
    (hget : resultOf getX w b = valueIf v w x) : ∃ (yc : Word) (kc : Bool) (ya : Word),
      Evaluates (encode .classify) w b yc kc false ∧ Evaluates (encode asX) w b ya true false ∧
      ((kc = true ∧ yc = zextTag v.number) → Evaluates (encode getX) w b ya true false) ∧
      (¬ (kc = true ∧ yc = zextTag v.number) → Evaluates (encode getX) w b 0#64 false false) := by
  refine ⟨_, _, x, evaluates_self .classify w b, evaluates_of_present asX has, ?_, ?_⟩ <;>
    rw [resultOf_classify_eq_number_iff, evaluates_encode_iff, hget, valueIf_eq]
  · intro hv
    rw [if_pos hv]
    rfl
  · intro hv
    rw [if_neg hv]
    rfl

/-- Settles O34: `get_eq_guarded_as` at each of the four variants. -/
theorem fallibleExtractionIsGuardedExtraction : Obligations.FallibleExtractionIsGuardedExtraction := by
  intro w b n hn
  simp only [List.mem_cons, List.not_mem_nil, or_false] at hn
  obtain rfl | rfl | rfl | rfl := hn
  · exact get_eq_guarded_as .float (asX := .asFloat) (getX := .getFloat) rfl rfl
  · exact get_eq_guarded_as .signedInt (asX := .asSigned) (getX := .getSigned) rfl rfl
  · exact get_eq_guarded_as .unsignedInt (asX := .asUnsigned) (getX := .getUnsigned) rfl rfl
  · exact get_eq_guarded_as .pointer (asX := .asPointer) (getX := .getPointer) rfl rfl

/-! The sign bit (R60). -/

/-- The operations that ignore bit 63 of their operand. -/
def signFree : List Instr :=
  [.classify, .isFloat, .isSigned, .isUnsigned, .isPointer, .asUnsigned, .asPointer, .getUnsigned, .getPointer]

theorem isNaN_setSign (w : Word) (s : Bool) : isNaN (setSign w s) = isNaN w := by
  rw [isNaN_eq, isNaN_eq]
  exact NaNPattern_congr (exponentOf_setSign w s) (tagOf_setSign w s) (payloadOf_setSign w s)

theorem classifyWord_setSign (w : Word) (s : Bool) : classifyWord (setSign w s) = classifyWord w :=
  classifyWord_congr (exponentOf_setSign w s) (tagOf_setSign w s) (payloadOf_setSign w s)

theorem isVariant_setSign (v : Variant) (w : Word) (s : Bool) : isVariant v (setSign w s) = isVariant v w := by
  rw [isVariant, isVariant, classifyWord_setSign]

theorem valueIf_setSign (v : Variant) (w : Word) (s : Bool) (x : Word) :
    valueIf v (setSign w s) x = valueIf v w x := by
  rw [valueIf, valueIf, isVariant_setSign]

/-- A sign-free operation reads its operand through `IsNaN`, `Classify` and `PayloadOf` only. -/
theorem resultOf_setSign {i : Instr} (hi : i ∈ signFree) (w : Word) (s : Bool) (b : Word) :
    resultOf i w b = resultOf i (setSign w s) b := by
  simp only [signFree, List.mem_cons, List.not_mem_nil, or_false] at hi
  rcases hi with rfl | rfl | rfl | rfl | rfl | rfl | rfl | rfl | rfl <;>
    simp only [resultOf, unsignedValue, pointerValue, isNaN_setSign, classifyWord_setSign, isVariant_setSign,
      valueIf_setSign, payloadOf_setSign]

/-- Settles O35: flipping bit 63 writes the sign (`xor_signMask`), which the nine operations do not read. -/
theorem signBitDoesNotReachClassification : Obligations.SignBitDoesNotReachClassification := by
  intro w b y k op hop
  have hcode : op ∈ signFree.map encode := hop
  obtain ⟨i, hi, rfl⟩ := List.mem_map.1 hcode
  have hflip : w ^^^ 0x8000_0000_0000_0000#64 = setSign w (!signOf w) := xor_signMask w
  rw [hflip]
  exact evaluates_congr (resultOf_setSign hi w _ b) y k false

/-! Reboxing. -/

theorem payloadOf_ofNat_mod (v : Word) : payloadOf (BitVec.ofNat 64 (v.toNat % 2 ^ 48)) = payloadOf v := by
  rw [payloadOf_eq_ofNat, payloadOf_eq_ofNat]
  apply BitVec.eq_of_toNat_eq
  simp only [BitVec.toNat_ofNat]
  omega

theorem boxUnsigned_congr {v w : Word} (h : payloadOf v = payloadOf w) : boxUnsigned v = boxUnsigned w := by
  rw [boxUnsigned, h, ← boxUnsigned]

theorem boxPointer_congr {v w : Word} (h : payloadOf v = payloadOf w) : boxPointer v = boxPointer w := by
  rw [boxPointer, h, ← boxPointer]

/-- Settles O40: both boxes read only the payload of their operand, and hold that payload. -/
theorem reboxingUnsignedAndPointerIsIdempotent : Obligations.ReboxingUnsignedAndPointerIsIdempotent := by
  intro v b c op hop
  simp only [List.mem_cons, List.not_mem_nil, or_false] at hop
  obtain rfl | rfl := hop
  · have hown : payloadOf (boxUnsigned v) = payloadOf v := by rw [boxUnsigned_eq, payloadOf_boxOf]
    exact ⟨boxUnsigned v, evaluates_of_present .fromUnsigned rfl,
      evaluates_of_present .fromUnsigned (congrArg resultPresent (boxUnsigned_congr (payloadOf_ofNat_mod v))),
      evaluates_of_present .fromUnsigned (congrArg resultPresent (boxUnsigned_congr hown))⟩
  · have hown : payloadOf (boxPointer v) = payloadOf v := by rw [boxPointer_eq, payloadOf_boxOf]
    exact ⟨boxPointer v, evaluates_of_present .fromPointer rfl,
      evaluates_of_present .fromPointer (congrArg resultPresent (boxPointer_congr (payloadOf_ofNat_mod v))),
      evaluates_of_present .fromPointer (congrArg resultPresent (boxPointer_congr hown))⟩

/-! The conditions that clear `ok` (R136). -/

theorem resultOf_classify_ok_eq_false_iff (a b : Word) : (resultOf .classify a b).ok = false ↔ variantOf a = none := by
  cases hv : variantOf a with
  | none => simp [resultOf_classify_of_none hv]
  | some v => simp [resultOf_classify_of_some hv]

theorem valueIf_ok_eq_false_iff (v : Variant) (w x : Word) :
    (valueIf v w x).ok = false ↔ variantOf w ≠ some v := by
  rw [valueIf_ok, decide_eq_false_iff_not]

/-- Only `classify` and the `get_*` ever clear `ok`, each on its own condition. -/
theorem resultOf_ok_eq_false_iff (i : Instr) (a b : Word) : (resultOf i a b).ok = false ↔
    (i = .classify ∧ variantOf a = none) ∨ (i = .getFloat ∧ variantOf a ≠ some .float) ∨
    (i = .getSigned ∧ variantOf a ≠ some .signedInt) ∨ (i = .getUnsigned ∧ variantOf a ≠ some .unsignedInt) ∨
    (i = .getPointer ∧ variantOf a ≠ some .pointer) := by
  cases i with
  | classify => simp [resultOf_classify_ok_eq_false_iff]
  | getFloat => simp [resultOf, valueIf_ok_eq_false_iff]
  | getSigned => simp [resultOf, valueIf_ok_eq_false_iff]
  | getUnsigned => simp [resultOf, valueIf_ok_eq_false_iff]
  | getPointer => simp [resultOf, valueIf_ok_eq_false_iff]
  | _ => simp [resultOf]

/-- Settles O41: a code is an operation's, where `resultOf_ok_eq_false_iff` lists the conditions, or reserved. -/
theorem okIsClearOnlyForReportedConditions : Obligations.OkIsClearOnlyForReportedConditions := by
  intro s t hstep
  rw [step_eq_drive] at hstep
  obtain rfl := Host.Outcome.next.inj hstep
  rw [State.drive_ok]
  obtain ⟨i, hop⟩ | hreserved := code_cases s.op
  · have hcode (j : Instr) : encode i = encode j ↔ i = j := encode_inj
    rw [hop, resultOfCode_encode, resultOf_ok_eq_false_iff, ← hcode, ← hcode, ← hcode, ← hcode, ← hcode]
    exact (or_iff_right (encode_not_reserved i)).symm
  · simp [resultOfCode_of_reserved hreserved, hreserved]

end Sys2Proof.Proofs.Evaluations
end

section
/-! `eq` as a relation on words (R132): symmetry, transitivity, where it is reflexive, and what it does not tell apart. -/

namespace Sys2Proof.Proofs.EqualityLaws

open Sys2Proof Sys2Proof.Machine Sys2Proof.Safety Sys2Proof.Laws
open Sys2Proof.Proofs.OperationMap Sys2Proof.Proofs.Fields Sys2Proof.Proofs.Settled Sys2Proof.Proofs.Results
open Sys2Proof.Proofs.Evaluations

/-! `eq` answers the Boolean of `SameValue`. -/

theorem evaluates_eq_one_iff (x z : Word) : Evaluates (encode .eq) x z 1#64 true false ↔ SameValue x z := by
  rw [evaluates_encode_iff]
  by_cases h : SameValue x z
  · simp [resultOf_eq_of_same h, h, resultPresent]
  · simp [resultOf_eq_of_not_same h, h, resultPresent]

theorem evaluates_eq_of_iff {x z : Word} {p : Prop} [Decidable p] (h : SameValue x z ↔ p) :
    Evaluates (encode .eq) x z (if p then 1#64 else 0#64) true false :=
  evaluates_of_present .eq (resultBool_eq_ite ((boxedEq_iff x z).trans h))

/-! Equality of typed values, then of the words that hold them. -/

theorem floatsEqual_symm {x z : Word} (h : FloatsEqual x z) : FloatsEqual z x := by
  obtain ⟨hx, hz, hxz⟩ := h
  exact ⟨hz, hx, hxz.imp Eq.symm And.symm⟩

theorem floatsEqual_trans {x y z : Word} (hxy : FloatsEqual x y) (hyz : FloatsEqual y z) : FloatsEqual x z := by
  obtain ⟨hx, -, rfl | ⟨hx0, hy0⟩⟩ := hxy
  · exact hyz
  · obtain ⟨-, hz, rfl | ⟨-, hz0⟩⟩ := hyz
    · exact ⟨hx, hz, .inr ⟨hx0, hy0⟩⟩
    · exact ⟨hx, hz, .inr ⟨hx0, hz0⟩⟩

/-- Equality of the typed values of two words that have one variant, `v` (R130). -/
def EqualAs (v : Variant) (x z : Word) : Prop :=
  match v with
  | .float => FloatsEqual x z
  | .signedInt => signedNumber x = signedNumber z
  | .unsignedInt | .pointer => payloadField x = payloadField z

theorem EqualAs.symm {v : Variant} {x z : Word} (h : EqualAs v x z) : EqualAs v z x := by
  cases v with
  | float => exact floatsEqual_symm h
  | signedInt => exact Eq.symm h
  | unsignedInt => exact Eq.symm h
  | pointer => exact Eq.symm h

theorem EqualAs.trans {v : Variant} {x y z : Word} (hxy : EqualAs v x y) (hyz : EqualAs v y z) : EqualAs v x z := by
  cases v with
  | float => exact floatsEqual_trans hxy hyz
  | signedInt => exact Eq.trans hxy hyz
  | unsignedInt => exact Eq.trans hxy hyz
  | pointer => exact Eq.trans hxy hyz

/-- Two words hold equal values exactly when they have one variant and are equal under it. -/
theorem sameValue_iff (x z : Word) :
    SameValue x z ↔ ∃ v, variantOf x = some v ∧ variantOf z = some v ∧ EqualAs v x z := by
  unfold SameValue valueOf
  cases variantOf x with
  | none => simp
  | some v =>
    cases variantOf z with
    | none => simp
    | some u =>
      cases v with
      | float => cases u <;> simp [Value.Equal, EqualAs]
      | signedInt => cases u <;> simp [Value.Equal, EqualAs]
      | unsignedInt => cases u <;> simp [Value.Equal, EqualAs]
      | pointer => cases u <;> simp [Value.Equal, EqualAs]

theorem sameValue_iff_of_variantOf {v : Variant} {x z : Word} (hx : variantOf x = some v) (hz : variantOf z = some v) :
    SameValue x z ↔ EqualAs v x z := by
  simp [sameValue_iff, hx, hz]

theorem sameValue_symm {x z : Word} (h : SameValue x z) : SameValue z x := by
  rw [sameValue_iff] at h ⊢
  obtain ⟨v, hx, hz, hxz⟩ := h
  exact ⟨v, hz, hx, hxz.symm⟩

theorem sameValue_trans {x y z : Word} (hxy : SameValue x y) (hyz : SameValue y z) : SameValue x z := by
  rw [sameValue_iff] at hxy hyz ⊢
  obtain ⟨v, hx, hy, hxy⟩ := hxy
  obtain ⟨u, hy', hz, hyz⟩ := hyz
  obtain rfl : v = u := Option.some.inj (hy.symm.trans hy')
  exact ⟨v, hx, hz, hxy.trans hyz⟩

/-- Settles O36: equality of typed values is symmetric and transitive, and a word holds one value at most. -/
theorem equalityIsSymmetricAndTransitive : Obligations.EqualityIsSymmetricAndTransitive := by
  constructor
  · intro x y r hxy
    have hsymm : resultOf .eq x y = resultOf .eq y x := by
      show resultBool (boxedEq x y) = resultBool (boxedEq y x)
      rw [Bool.eq_iff_iff.2 ((boxedEq_iff x y).trans (Iff.trans ⟨sameValue_symm, sameValue_symm⟩ (boxedEq_iff y x).symm))]
    exact (evaluates_congr hsymm r true false).1 hxy
  · intro x y z hxy hyz
    exact (evaluates_eq_one_iff x z).2
      (sameValue_trans ((evaluates_eq_one_iff x y).1 hxy) ((evaluates_eq_one_iff y z).1 hyz))

/-- A word equals itself unless it has no variant or is a NaN of the variant `Float`. -/
theorem sameValue_self_iff (w : Word) : SameValue w w ↔ ¬ ForeignToTests w := by
  rw [foreignToTests_iff, sameValue_iff]
  cases variantOf w with
  | none => simp
  | some v => cases v <;> simp [EqualAs, FloatsEqual]

/-- Settles O37: `eq` is reflexive except on the words that no test accepts (`sameValue_self_iff`). -/
theorem equalityIsReflexiveExceptOnForeignWords : Obligations.EqualityIsReflexiveExceptOnForeignWords := by
  intro w
  have h := evaluates_eq_of_iff (sameValue_self_iff w)
  rwa [ite_not] at h

/-! What `eq` does not tell apart. -/

theorem payloadField_eq_of_low63 {x z : Word} (h : x.toNat % 2 ^ 63 = z.toNat % 2 ^ 63) :
    payloadField x = payloadField z := by
  rw [← toNat_payloadOf, ← toNat_payloadOf, ((low63_eq_iff x z).1 h).2.2]

theorem variantOf_congr_of_low63 {x z : Word} (h : x.toNat % 2 ^ 63 = z.toNat % 2 ^ 63) :
    variantOf x = variantOf z := by
  obtain ⟨he, ht, hp⟩ := (low63_eq_iff x z).1 h
  rw [variantOf, variantOf, NaNPattern_congr he ht hp, ← toNat_tagOf, ← toNat_tagOf, ht]

/-- A variant other than `Float` fixes exponent and tag, so equal payloads leave only the sign to differ. -/
theorem low63_eq_of_variantOf {v : Variant} {x z : Word} (hx : variantOf x = some v) (hz : variantOf z = some v)
    (hv : v ≠ .float) (hp : payloadField x = payloadField z) : x.toNat % 2 ^ 63 = z.toNat % 2 ^ 63 := by
  have hexponent {w : Word} (hw : variantOf w = some v) : exponentField w = 0x7FF :=
    ((NaNPattern_iff w).1 (NaNPattern_of_variantOf_ne_float (by simpa [hw] using hv))).1
  refine (low63_eq_iff x z).2 ⟨?_, ?_, ?_⟩
  · rw [← BitVec.toNat_inj, toNat_exponentOf, toNat_exponentOf, hexponent hx, hexponent hz]
  · rw [tagOf_of_variantOf hx hv, tagOf_of_variantOf hz hv]
  · rw [← BitVec.toNat_inj, toNat_payloadOf, toNat_payloadOf, hp]

theorem payloadField_eq_of_signedNumber_eq {x z : Word} (h : signedNumber x = signedNumber z) :
    payloadField x = payloadField z := by
  unfold signedNumber at h
  split at h <;> split at h <;> omega

/-- An integer other than zero fixes the sign bit. -/
theorem signField_eq_of_signedNumber_eq {x z : Word} (h : signedNumber x = signedNumber z) (hx : payloadField x ≠ 0) :
    signField x = signField z := by
  have := x.isLt
  have := z.isLt
  unfold signedNumber at h
  unfold signField at h ⊢
  split at h <;> split at h <;> omega

theorem signedNumber_eq_zero {w : Word} (h : payloadField w = 0) : signedNumber w = 0 := by
  rw [signedNumber, h]
  split <;> rfl

theorem eq_of_low63_of_signField {x z : Word} (hlow : x.toNat % 2 ^ 63 = z.toNat % 2 ^ 63)
    (hsign : signField x = signField z) : x = z := by
  apply BitVec.eq_of_toNat_eq
  unfold signField at hsign
  omega

/-- Settles O38: equal values of one variant have the same low 63 bits, and where these are not those of a zero and the
sign counts, the words are the same; conversely the low 63 bits fix variant and payload. -/
theorem equalityIsCoarserOnlyInTheSignBit : Obligations.EqualityIsCoarserOnlyInTheSignBit := by
  intro x z hne
  refine (evaluates_eq_one_iff x z).trans ?_
  constructor
  · rw [sameValue_iff]
    rintro ⟨v, hx, hz, hequal⟩
    cases v with
    | float =>
      obtain ⟨-, -, hsame | ⟨hx0, hz0⟩⟩ := hequal
      · exact absurd hsame hne
      · exact ⟨hx0.trans hz0.symm, .inl hx0⟩
    | signedInt =>
      have hlow := low63_eq_of_variantOf hx hz (by decide) (payloadField_eq_of_signedNumber_eq hequal)
      refine ⟨hlow, .inr (.inl ⟨hx, ?_⟩)⟩
      by_contra hp
      exact hne (eq_of_low63_of_signField hlow (signField_eq_of_signedNumber_eq hequal hp))
    | unsignedInt => exact ⟨low63_eq_of_variantOf hx hz (by decide) hequal, .inr (.inr (.inl hx))⟩
    | pointer => exact ⟨low63_eq_of_variantOf hx hz (by decide) hequal, .inr (.inr (.inr hx))⟩
  · rintro ⟨hlow, hcase⟩
    have hvariant := variantOf_congr_of_low63 hlow
    have hpayload := payloadField_eq_of_low63 hlow
    obtain hx0 | ⟨hx, hp⟩ | hx | hx := hcase
    · have hx := not_NaNPattern_of_low63_eq_zero hx0
      have hz := not_NaNPattern_of_low63_eq_zero (hlow.symm.trans hx0)
      rw [sameValue_iff_of_variantOf (variantOf_eq_float_of_not_NaNPattern hx)
        (variantOf_eq_float_of_not_NaNPattern hz)]
      exact ⟨hx, hz, .inr ⟨hx0, hlow.symm.trans hx0⟩⟩
    · rw [sameValue_iff_of_variantOf hx (hvariant.symm.trans hx)]
      exact (signedNumber_eq_zero hp).trans (signedNumber_eq_zero (hpayload.symm.trans hp)).symm
    · exact (sameValue_iff_of_variantOf hx (hvariant.symm.trans hx)).2 hpayload
    · exact (sameValue_iff_of_variantOf hx (hvariant.symm.trans hx)).2 hpayload

/-! Constructed words. -/

theorem sameValue_boxSigned_iff {u v : Word} (hu : -2 ^ 48 < u.toInt) (hu' : u.toInt < 2 ^ 48)
    (hv : -2 ^ 48 < v.toInt) (hv' : v.toInt < 2 ^ 48) : SameValue (boxSigned u) (boxSigned v) ↔ u = v := by
  rw [sameValue_iff_of_variantOf (variantOf_boxSigned u) (variantOf_boxSigned v), EqualAs,
    signedNumber_boxSigned_of_inRange hu hu', signedNumber_boxSigned_of_inRange hv hv', BitVec.toInt_inj]

theorem sameValue_boxUnsigned_iff {u v : Word} (hu : u.toNat < 2 ^ 48) (hv : v.toNat < 2 ^ 48) :
    SameValue (boxUnsigned u) (boxUnsigned v) ↔ u = v := by
  rw [sameValue_iff_of_variantOf (variantOf_boxUnsigned u) (variantOf_boxUnsigned v), EqualAs,
    payloadField_boxUnsigned, payloadField_boxUnsigned, Nat.mod_eq_of_lt hu, Nat.mod_eq_of_lt hv, BitVec.toNat_inj]

theorem sameValue_boxPointer_iff {u v : Word} (hu : u.toNat < 2 ^ 48) (hv : v.toNat < 2 ^ 48) :
    SameValue (boxPointer u) (boxPointer v) ↔ u = v := by
  rw [sameValue_iff_of_variantOf (variantOf_boxPointer u) (variantOf_boxPointer v), EqualAs,
    payloadField_boxPointer, payloadField_boxPointer, Nat.mod_eq_of_lt hu, Nat.mod_eq_of_lt hv, BitVec.toNat_inj]

/-- Settles O39: within the exact range the value in a box is the operand's, so equal values are equal operands. -/
theorem constructedValuesAreEqualOnlyWhenSame : Obligations.ConstructedValuesAreEqualOnlyWhenSame := by
  constructor
  · intro u v b hu hu' hv hv'
    exact ⟨boxSigned u, boxSigned v, evaluates_of_present .fromSigned rfl, evaluates_of_present .fromSigned rfl,
      evaluates_eq_of_iff (sameValue_boxSigned_iff hu hu' hv hv')⟩
  · intro u v b hu hv n hn
    simp only [List.mem_cons, List.not_mem_nil, or_false] at hn
    obtain rfl | rfl := hn
    · exact ⟨boxUnsigned u, boxUnsigned v, evaluates_of_present .fromUnsigned rfl,
        evaluates_of_present .fromUnsigned rfl, evaluates_eq_of_iff (sameValue_boxUnsigned_iff hu hv)⟩
    · exact ⟨boxPointer u, boxPointer v, evaluates_of_present .fromPointer rfl,
        evaluates_of_present .fromPointer rfl, evaluates_eq_of_iff (sameValue_boxPointer_iff hu hv)⟩

end Sys2Proof.Proofs.EqualityLaws
end

section
/-! The field writes as R87 and R90 say their laws. -/

namespace Sys2Proof.Proofs.FieldWrites

open Sys2Proof Sys2Proof.Machine Sys2Proof.Safety Sys2Proof.Laws Sys2Proof.Proofs.Fields

/-- Stamping tag and payload into two words with the same top twelve bits gives one word (R87). -/
theorem stamp_congr {v w : Word} (h : v.extractLsb' 52 12 = w.extractLsb' 52 12) (t : Tag) (p : Payload) :
    setPayload (setTag v t) p = setPayload (setTag w t) p := by
  obtain ⟨hs, he⟩ := signOf_and_exponentOf_of_top12 h
  exact setPayload_setTag_congr hs he t p

theorem stamp_template (t : Tag) (p : Payload) : setPayload (setTag template t) p = boxOf false t p := by
  apply word_ext <;> simp

theorem stamp_template_signed (t : Tag) (p : Payload) (s : Bool) :
    setPayload (setSign (setTag template t) s) p = boxOf s t p := by
  apply word_ext <;> simp

/-- Settles O42: a stamped template is `{S, 0x7FF, T, P}`, a NaN pattern unless tag and payload are zero
(`NaNPattern_boxOf_iff`). -/
theorem stampedTemplateIsNaNUnlessAllZero : Obligations.StampedTemplateIsNaNUnlessAllZero := by
  constructor
  · intro t p s
    rw [stamp_template, stamp_template_signed, isNaN_eq, isNaN_eq]
    exact ⟨exponentField_boxOf s t p, NaNPattern_boxOf_iff false t p, NaNPattern_boxOf_iff s t p⟩
  · intro v w t p h
    exact stamp_congr h t p

/-- Settles O44: read after write, the order of writes, the last write and the full stamp are laws of the primitives; the
bits a write leaves alone are read off it bit by bit. -/
theorem fieldWritesObeyTheirLaws : Obligations.FieldWritesObeyTheirLaws := by
  intro w t t' p p' s s'
  refine ⟨⟨tagOf_setTag w t, payloadOf_setPayload w p, signOf_setSign w s⟩, fun i hi => ⟨?_, ?_, ?_⟩,
    ⟨setTag_setPayload w t p, setTag_setSign w t s, setSign_setPayload w s p⟩,
    ⟨setTag_setTag w t t', setPayload_setPayload w p p', setSign_setSign w s s'⟩, fun v h => stamp_congr h t p⟩
  · intro houtside
    rw [getLsbD_setTag w t hi, if_neg (by omega)]
  · intro habove
    rw [getLsbD_setPayload w p hi, if_neg (by omega)]
  · intro hne
    rw [getLsbD_setSign w s hi, if_neg hne]

end Sys2Proof.Proofs.FieldWrites
end

section
/-! The counts of R64. -/

namespace Sys2Proof.Proofs.Counts

open Sys2Proof Sys2Proof.Machine Sys2Proof.Safety Sys2Proof.Laws

/-- The words of a test are shared out by their tags. -/
theorem countWords_eq_sum_tagField (c : Word → Bool) :
    countWords c = ∑ t ∈ Finset.range 16, countWords (fun w => c w && decide (tagField w = t)) := by
  have htag (w : Word) : tagField w ∈ Finset.range 16 := Finset.mem_range.2 (Nat.mod_lt _ (by decide))
  rw [countWords, Finset.card_eq_sum_card_fiberwise (f := fun n => tagField (BitVec.ofNat 64 n)) fun _ _ => htag _]
  refine Finset.sum_congr rfl fun t _ => ?_
  rw [countWords, Finset.filter_filter]
  refine congrArg Finset.card (Finset.filter_congr fun n _ => ?_)
  rw [Bool.and_eq_true, decide_eq_true_iff]

/-- A NaN pattern with tag 0 needs a payload, with any other tag it does not (R57). -/
theorem NaNPattern_and_tagField_iff (w : Word) (t : Nat) : (NaNPattern w = true ∧ tagField w = t) ↔
    exponentField w = 0x7FF ∧ tagField w = t ∧ (if t = 0 then 1 else 0) ≤ payloadField w := by
  rw [NaNPattern_iff, mantissaField_eq]
  split <;> omega

/-- How many NaN patterns have one tag (R64). -/
theorem countWords_NaNPattern_tag {t : Nat} (ht : t < 16) {c : Word → Bool}
    (hc : ∀ w, c w = true ↔ NaNPattern w = true ∧ tagField w = t) :
    countWords c = if t = 0 then 2 ^ 49 - 2 else 2 ^ 49 := by
  rw [countWords_tagged t _ ht c fun w => (hc w).trans (NaNPattern_and_tagField_iff w t)]
  split <;> rfl

theorem countWords_isNaN : countWords isNaN = 2 ^ 53 - 2 := by
  have hcount (t : Nat) (ht : t ∈ Finset.range 16) : countWords (fun w => isNaN w && decide (tagField w = t)) =
      if t = 0 then 2 ^ 49 - 2 else 2 ^ 49 :=
    countWords_NaNPattern_tag (Finset.mem_range.1 ht) fun w => by
      rw [Bool.and_eq_true, decide_eq_true_iff, isNaN_eq]
  rw [countWords_eq_sum_tagField, Finset.sum_congr rfl hcount]
  rfl

theorem classifyWord_beq_ok_iff (w : Word) (v : Variant) :
    (classifyWord w == .ok v) = true ↔ variantOf w = some v := isVariant_iff v w

/-- `Classify` answers an error exactly for a NaN pattern whose tag is outside 1 to 4, with that tag (R105). -/
theorem classifyWord_beq_err_iff (w : Word) {t : Tag} (ht : t.toNat = 0 ∨ 5 ≤ t.toNat) :
    (classifyWord w == .err t) = true ↔ NaNPattern w = true ∧ tagField w = t.toNat := by
  have hnone : classifyWord w = .err t ↔ variantOf w = none ∧ tagOf w = t := by
    rw [classifyWord_eq]
    cases variantOf w <;> simp
  rw [beq_iff_eq, hnone, variantOf_eq_none_iff, tagOf_eq_iff]
  constructor
  · rintro ⟨⟨hnan, -⟩, htag⟩
    exact ⟨hnan, htag⟩
  · rintro ⟨hnan, htag⟩
    exact ⟨⟨hnan, by rwa [htag]⟩, htag⟩

/-- A word that is no NaN pattern classifies `Float`. -/
theorem not_isNaN_and_float (w : Word) : (!isNaN w && classifyWord w == .ok .float) = !isNaN w := by
  cases h : isNaN w <;> simp [classifyWord, h]

theorem isNaN_and_float_iff (w : Word) :
    (isNaN w && classifyWord w == .ok .float) = true ↔ NaNPattern w = true ∧ tagField w = 1 := by
  rw [Bool.and_eq_true, classifyWord_beq_ok_iff, variantOf_eq_float_iff, isNaN_eq]
  tauto

/-- Settles O43: each class of NaN patterns is the words of one tag (`countWords_NaNPattern_tag`), and what is no NaN
pattern is the rest of the 2^64 words. -/
theorem classificationCounts : Obligations.ClassificationCounts := by
  refine ⟨?_, countWords_NaNPattern_tag (t := 1) (by decide) isNaN_and_float_iff,
    countWords_NaNPattern_tag (t := 2) (by decide) fun w =>
      (classifyWord_beq_ok_iff w .signedInt).trans (variantOf_eq_signedInt_iff w),
    countWords_NaNPattern_tag (t := 3) (by decide) fun w =>
      (classifyWord_beq_ok_iff w .unsignedInt).trans (variantOf_eq_unsignedInt_iff w),
    countWords_NaNPattern_tag (t := 4) (by decide) fun w =>
      (classifyWord_beq_ok_iff w .pointer).trans (variantOf_eq_pointer_iff w),
    countWords_NaNPattern_tag (t := 0) (by decide) fun w => classifyWord_beq_err_iff w (.inl rfl), fun t ht => ?_⟩
  · rw [countWords_congr not_isNaN_and_float]
    have htotal := countWords_add_not isNaN
    rw [countWords_isNaN] at htotal
    omega
  · rw [countWords_NaNPattern_tag t.isLt fun w => classifyWord_beq_err_iff w (.inr ht), if_neg (by omega)]

end Sys2Proof.Proofs.Counts
end
